-- ==== Sys2Proof/Word.lean ====
section
/-! DEFINITION. The word and byte types of the machine. -/
namespace Sys2Proof

/-- A 64-bit register word (R86). -/
abbrev W := BitVec 64

/-- A byte of memory (R5). -/
abbrev Byte := BitVec 8

end Sys2Proof
end

