-- ==== Sys2Proof/Machine/Bits.lean ====
section
/-! DEFINITION. Bit fields, sign extension and integer readings of words (R82, R106). -/
namespace Sys2Proof.Machine

/-- Bits lo + w − 1 down to lo of a word, as a number. -/
def fld (x : W) (lo w : Nat) : Nat := x.toNat / 2 ^ lo % 2 ^ w

/-- The word with bits lo + w − 1 down to lo replaced by the low w bits of `v`. -/
def setFld (x : W) (lo w v : Nat) : W :=
  BitVec.ofNat 64 (x.toNat - fld x lo w * 2 ^ lo + v % 2 ^ w * 2 ^ lo)

/-- Bit `i` of a word. -/
def bit (x : W) (i : Nat) : Bool := fld x i 1 == 1

/-- The low `w` bits of `n` read in two's complement (R82). -/
def sInt (w n : Nat) : Int :=
  if 2 ^ (w - 1) ≤ n % 2 ^ w then (n % 2 ^ w : Nat) - (2 ^ w : Nat) else (n % 2 ^ w : Nat)

/-- The low `w` bits of an integer, as a number. -/
def lowBits (w : Nat) (i : Int) : Nat := (i % (2 ^ w : Nat)).toNat

/-- SignExt of R106. -/
def sext (w n : Nat) : W := BitVec.ofInt 64 (sInt w n)

/-- A number in 64 bits. -/
def wd (n : Nat) : W := BitVec.ofNat 64 n

/-- A truth value as 0 or 1. -/
def b01 (b : Bool) : Nat := if b then 1 else 0

/-- The little-endian number of a list of bytes (R5). -/
def leNat : List Byte → Nat
  | [] => 0
  | b :: r => b.toNat + 256 * leNat r

/-- The `n` bytes of a number, lowest first (R5). -/
def leBytes : Nat → Nat → List Byte
  | 0, _ => []
  | n + 1, x => BitVec.ofNat 8 x :: leBytes n (x / 256)

/-- The numbers lo, lo + 1, …, n of them. -/
def upto : Nat → Nat → List Nat
  | _, 0 => []
  | lo, n + 1 => lo :: upto (lo + 1) n

/-- The number of one bits among bits 0 to `n` − 1. -/
def popNat (x : Nat) : Nat → Nat
  | 0 => 0
  | n + 1 => popNat x n + (if x.testBit n then 1 else 0)

/-- The bit positions below `n` that are set, rising. -/
def setBitsOf (x n : Nat) : List Nat := (upto 0 n).filter (fun i => x.testBit i)

/-- The bit-reversed low `n` bits. -/
def revBits (x : Nat) : Nat → Nat
  | 0 => 0
  | n + 1 => 2 * revBits x n + (if x.testBit n then 1 else 0)

/-- Quotient rounded up. -/
def ceilDiv (a b : Nat) : Nat := (a + b - 1) / b

/-- Floor of the logarithm to base 2 of the positive rational n / d. -/
def qlog2 (n d : Nat) : Int :=
  let e : Int := (Nat.log2 n : Int) - (Nat.log2 d : Int)
  let ok := if 0 ≤ e then decide (d * 2 ^ e.toNat ≤ n) else decide (d ≤ n * 2 ^ (-e).toNat)
  if ok then e else e - 1

/-- The integer square root, its bits below `k` + 1 added to `r` from the highest down. -/
def isqrtFrom (n : Nat) : Nat → Nat → Nat
  | 0, r => if (r + 1) * (r + 1) ≤ n then r + 1 else r
  | k + 1, r => isqrtFrom n k (if (r + 2 ^ (k + 1)) * (r + 2 ^ (k + 1)) ≤ n then r + 2 ^ (k + 1) else r)

/-- The integer square root. -/
def isqrt (n : Nat) : Nat := isqrtFrom n (Nat.log2 n / 2 + 1) 0

end Sys2Proof.Machine
end

