-- ==== Sys2Proof/Machine/Cipher.lean ====
section
/-! DEFINITION. The cipher of a DRAM line: AES-256 in XTS mode with the bank-linear address of the line as tweak (R248,
R317). The spec names the algorithm; its steps are those of its standards, and the forms of the key and of the tweak are
log 51. -/
namespace Sys2Proof.Machine

/-- The substitution of AES in eight numbers of 32 bytes, lowest first. -/
def aesSbox : List Nat :=
  [0xC072A49CAFA2D4ADF04759FA7DC982CA76ABD7FE2B670130C56F6BF27B777C63,
   0x75B227EBE28012079A059618C323C7041531D871F1E5A534CCF73F362693FDB7,
   0xCF584C4A39BECB6A5BB1FC20ED00D153842FE329B3D63B52A05A6E1B1A2C8309,
   0xD2F3FF1021DAB6BCF5389D928F40A351A89F3C507F02F94585334D43FBAAEFD0,
   0xDB0B5EDE14B8EE4688902A22DC4F816073195D643D7EA7C41744975FEC130CCD,
   0x08AE7A65EAF4566CA94ED58D6D37C8E779E4959162ACD3C25C2406490A3A32E0,
   0x9E1DC186B95735610EF6034866B53E708A8BBD4B1F74DDE8C6B4A61C2E2578BA,
   0x16BB54B00F2D99416842E6BF0D89A18CDF2855CEE9871E9B948ED9691198F8E1]

/-- The inverse substitution of AES in eight numbers of 32 bytes, lowest first. -/
def aesInvSbox : List Nat :=
  [0xCBE9DEC444438E3487FF2F9B8239E37CFBD7F3819EA340BF38A53630D56A0952,
   0x25D18B6D49A25B76B224D92866A12E084EC3FA420B954CEE3D23C2A632947B54,
   0x849D8DA75746155EDAB9EDFD5048706C92B6655DCC5CA4D41698688664F6F872,
   0x6B8A130103BDAFC1020F3FCA8F1E2CD00645B3B80558E4F70AD3BC8C00ABD890,
   0x6EDF751CE837F9E28535ADE72274AC9673E6B4F0CECFF297EADC674F4111913A,
   0xF45ACD78FEC0DB9A2079D2C64B3E56FC1BBE18AA0E62B76F89C5291D711AF147,
   0xEF9CC9939F7AE52D0D4AB519A97F51605FEC8027591012B131C7078833A8DD1F,
   0x7D0C2155631469E126D677BA7E042B17619953833CBBEBC8B0F52AAE4D3BE0A0]

/-- Byte `x` of a substitution table. -/
def aesLook (t : List Nat) (x : Nat) : Nat := t.getD (x / 32) 0 / 2 ^ (8 * (x % 32)) % 256

/-- Doubling in the field of AES. -/
def aesDouble (b : Nat) : Nat := if b < 128 then 2 * b else (2 * b) ^^^ 0x11B

/-- Product in the field of AES, over the low `n` bits of the second factor. -/
def aesMul : Nat → Nat → Nat → Nat
  | 0, _, _ => 0
  | n + 1, a, b => (if b % 2 = 1 then a else 0) ^^^ aesMul n (aesDouble a) (b / 2)

/-- Bytes of two blocks or words, added in the field. -/
def aesAdd (a b : List Nat) : List Nat := List.zipWith (fun x y => x ^^^ y) a b

/-- The bytes of a number, lowest first. -/
def numBytes : Nat → Nat → List Nat
  | 0, _ => []
  | n + 1, x => x % 256 :: numBytes n (x / 256)

/-- The number of a list of bytes, lowest first. -/
def bytesNum : List Nat → Nat
  | [] => 0
  | b :: r => b + 256 * bytesNum r

/-- The next `n` words of the key schedule after word `i`; the words so far stand newest first. -/
def aesExpand : Nat → Nat → List (List Nat) → List (List Nat)
  | 0, _, ws => ws
  | n + 1, i, ws =>
    let t := ws.headD []
    let rot := (t.drop 1 ++ t.take 1).map (aesLook aesSbox)
    let u := if i % 8 = 0 then aesAdd rot [2 ^ (i / 8 - 1), 0, 0, 0]
      else if i % 8 = 4 then t.map (aesLook aesSbox) else t
    aesExpand n (i + 1) (aesAdd u (ws.getD 7 []) :: ws)

/-- The four words from word `i` as one round key. -/
def roundKey (ws : List (List Nat)) (i : Nat) : List Nat := ((ws.drop i).take 4).flatten

/-- The fifteen round keys of a 256-bit key, given as its 32 bytes. -/
def aesKeys (key : List Nat) : List (List Nat) :=
  let w0 := ((upto 0 8).map fun i => (key.drop (4 * i)).take 4).reverse
  let ws := (aesExpand 52 8 w0).reverse
  (upto 0 15).map fun r => roundKey ws (4 * r)

/-- The rows of a block turned by `k` times their number. -/
def aesShift (k : Nat) (b : List Nat) : List Nat :=
  (upto 0 16).map fun i => b.getD (i % 4 + 4 * ((i / 4 + k * (i % 4)) % 4)) 0

/-- The columns of a block mixed with the coefficients of a row. -/
def aesMix (c : List Nat) (b : List Nat) : List Nat :=
  (upto 0 16).map fun i =>
    ((upto 0 4).map fun j => aesMul 8 (b.getD (i / 4 * 4 + j) 0) (c.getD ((j + 4 - i % 4) % 4) 0)).foldl (· ^^^ ·) 0

/-- The rounds of AES-256 with the round keys that are left. -/
def aesRounds : List (List Nat) → List Nat → List Nat
  | [], b => b
  | [k], b => aesAdd (aesShift 1 (b.map (aesLook aesSbox))) k
  | k :: r, b => aesRounds r (aesAdd (aesMix [2, 3, 1, 1] (aesShift 1 (b.map (aesLook aesSbox)))) k)

/-- The inverse rounds with the round keys that are left, last first. -/
def aesUnrounds : List (List Nat) → List Nat → List Nat
  | [], b => b
  | [k], b => aesAdd ((aesShift 3 b).map (aesLook aesInvSbox)) k
  | k :: r, b => aesUnrounds r (aesMix [14, 11, 13, 9] (aesAdd ((aesShift 3 b).map (aesLook aesInvSbox)) k))

/-- AES-256 of one block of 16 bytes. -/
def aesEnc (ks : List (List Nat)) (b : List Nat) : List Nat := aesRounds (ks.drop 1) (aesAdd b (ks.headD []))

/-- The inverse of AES-256 on one block of 16 bytes. -/
def aesDec (ks : List (List Nat)) (b : List Nat) : List Nat :=
  aesUnrounds (ks.reverse.drop 1) (aesAdd b (ks.reverse.headD []))

/-- The tweak of the next block of XTS. -/
def xtsNext (t : Nat) : Nat := if t < 2 ^ 127 then 2 * t else (2 * t - 2 ^ 128) ^^^ 0x87

/-- The blocks of a line in XTS, from the tweak of the first. -/
def xtsBlocks (f : List Nat → List Nat) : Nat → Nat → Nat → List Nat
  | 0, _, _ => []
  | n + 1, t, x =>
    let tb := numBytes 16 t
    aesAdd (f (aesAdd (numBytes 16 (x % 2 ^ 128)) tb)) tb ++ xtsBlocks f n (xtsNext t) (x / 2 ^ 128)

/-- The tweak of a line: AES under the second half of the key of the line's bank-linear address (log 51). -/
def xtsTweak (key a : Nat) : Nat := bytesNum (aesEnc (aesKeys (numBytes 32 (key / 2 ^ 256))) (numBytes 16 a))

/-- The 128 bytes that the cells hold for a line under a key (R248). -/
def lineEncrypt (key a x : Nat) : Nat :=
  bytesNum (xtsBlocks (aesEnc (aesKeys (numBytes 32 (key % 2 ^ 256)))) 8 (xtsTweak key a) x)

/-- The 128 bytes that the cells of a line read as under a key (R248). -/
def lineDecrypt (key a x : Nat) : Nat :=
  bytesNum (xtsBlocks (aesDec (aesKeys (numBytes 32 (key % 2 ^ 256)))) 8 (xtsTweak key a) x)

end Sys2Proof.Machine
end

