-- ==== Sys2Proof/Config.lean ====
section
/-! DEFINITION. The free values of the model: constants with no body, so that nothing in Lean can evaluate them.
Each stands for a value the spec leaves open, applied to the step counter of the state and to what it depends on;
the assumption log names each. -/
namespace Sys2Proof.Config

/-- Nanoseconds that pass in step `t` (log 3): the spec fixes no instruction timing. -/
opaque nsIn : Nat → Nat

/-- Arithmetic-clock cycles of a package core that pass in step `t` (R91, log 3). -/
opaque cyclesIn : Nat → Nat → Nat

/-- How far TIME of a stack lies behind that of stack 0: reduced modulo 3, the lag in ns (R91: at most 2, log 3). -/
opaque timeLag : Nat → Nat

/-- How many more cells of a lattice line an exchange engine reads, or joins, before another agent acts (R356, log 81). -/
opaque exchCells : Nat → Nat → Nat
/-- The cell of a line that an exchange engine reads or joins next, for a step and a key of the line (R356, log 81). -/
opaque exchOrder : Nat → Nat → Nat
/-- A line that has risen since a round began is sent in that round, for a step and the line (R357, log 81). -/
opaque exchLate : Nat → Nat → Bool

/-- What a read of a table or a code line finds at an address that holds nothing (R231, log 9). -/
opaque holeByte : Nat → Byte

/-- How many of the other window's stores a read through one DRAM window of a part sees (R262, log 12). -/
opaque aliasNew : Nat → Nat → Nat

/-- Whether a window write to a running hart's registers, or one of its parts that waits, is performed in this step
(R238, log 19). -/
opaque winNow : Nat → Nat → Bool

/-- Whether a line of host memory has left the slices of its issuing stack before an access (R251, log 27). -/
opaque hostEvict : Nat → Nat → Bool

/-- Whether a peer refuses a store or an atomic, or cannot perform an atomic (R155, R163, log 61). -/
opaque peerRefuses : Nat → Nat → Bool

/-- Whether a peer element aimed at a crew that stops while the instruction runs is performed before the stop (R230, log
97). -/
opaque peerLate : Nat → Nat → Bool

/-- Which member of a contiguity group that breaks R243 translates an access (log 10). -/
opaque contMember : Nat → Nat → Nat

/-- Whether an access uses a cached scalar translation that the tables no longer give (R179, log 11). -/
opaque tlbKeep : Nat → Nat → Bool

/-- Whether a fetch returns a code line that the hart already holds rather than the stored one (R81, R170, log 13). -/
opaque lineKeep : Nat → Nat → Bool

/-- Whether an access to a line of DRAM finds it in the slices and needs no gap of a computing bank (R25, R337, log
23). -/
opaque sliceHit : Nat → Nat → Bool

/-- Nanoseconds from one time at which a bank's refresh falls due to the next, by the start of the operation, bank and
number: the layer controller sets the interval for the array's temperature (R336, log 79). -/
opaque refreshEvery : Nat → Nat → Nat → Nat

/-- Data bits of a codeword that a double-bit error poisons (R349, log 15). -/
opaque lostBits : Nat → Nat → Byte

/-- Whether an access drives an unbacked line of the touched set out of the cache though the set has room (R366,
log 16). -/
opaque ubConflict : Nat → Nat → Bool

/-- Which present unbacked line of its set a way conflict drives out of the cache (R366, log 16). -/
opaque ubVictim : Nat → Nat → Nat

/-- A value that the spec leaves unstated, in 64 bits (log 18). -/
opaque unstated : Nat → Nat → W

/-- Where the next byte of the health record's contents goes in among the bytes before it, by their number: the spec gives no
layout (R424, log 50). -/
opaque healthPlace : Nat → Nat

/-- How many bytes the health record has beyond its contents, reduced modulo 1,024 (R424, log 50). -/
opaque healthPad : Nat

end Sys2Proof.Config
end

