-- ==== Sys2Proof/Syntax.lean ====
section
/-! DEFINITION. The instructions and events of the part: one constructor for each row of spec/opcode_table.json.
A constructor of an instruction holds the operands of its encoding (R78, R82, R92); a constructor whose name begins
with `ev` is an event of the table, which no encoding names; its arguments say where it happens and what the world
outside the model gives it. -/
namespace Sys2Proof

/-- A scalar register number (R86). -/
abbrev SReg := Fin 64
/-- A vector register number (R86). -/
abbrev VReg := Fin 32
/-- A mask register number (R86). -/
abbrev KReg := Fin 16
/-- A tile number (R86). -/
abbrev Tile := Fin 8
/-- A format field: `none` leaves the format to MFC, `some c` is FO = 1 with code `c` (R108). -/
abbrev FmtSel := Option (BitVec 5)

/-- The scopes (R94, R254). -/
inductive Scope where
  | co | st | dv | sy
deriving DecidableEq, Repr

/-- The VTYPE request of SETVL and SETVLI: FZ, LMUL and SEW codes (R194). -/
structure VReq where
  fz : BitVec 2
  lm : BitVec 3
  sew : BitVec 3
deriving DecidableEq, Repr

/-- The second operand of the arithmetic tail: FORM 0b00, 0b01 and 0b10 (R196, R197). -/
inductive VSrc where
  | v (r : VReg) | s (r : SReg) | i (imm : BitVec 6)
deriving DecidableEq, Repr

/-- The arithmetic tail with two source operands (R196). -/
structure VBin where
  k : KReg
  z : Bool
  n : Bool
  src : VSrc
  a : VReg
deriving DecidableEq, Repr

/-- The arithmetic tail with an addend group (R202). -/
structure VFma where
  k : KReg
  z : Bool
  src : VSrc
  a : VReg
  c : VReg
deriving DecidableEq, Repr

/-- The arithmetic tail with one source group: FORM 0b00, B = 0 (R202, R207). -/
structure VUn where
  k : KReg
  z : Bool
  a : VReg
deriving DecidableEq, Repr

/-- The tail of VFCVT: I6 holds the kind (R205). -/
structure VCvt where
  k : KReg
  z : Bool
  kind : BitVec 6
  a : VReg
deriving DecidableEq, Repr

/-- The tail of a reduction: FORM 0b01, B the initial value (R206). -/
structure VRed where
  k : KReg
  n : Bool
  b : SReg
  a : VReg
deriving DecidableEq, Repr

/-- The tail of VBCAST: A = 0 (R207). -/
structure VBcast where
  k : KReg
  z : Bool
  src : VSrc
deriving DecidableEq, Repr

/-- The tail of VEXT: K = 0, Z = 0 (R207). -/
structure VExt where
  n : Bool
  src : VSrc
  a : VReg
deriving DecidableEq, Repr

/-- The tail of the vector memory instructions (R209). -/
structure VMem where
  k : KReg
  z : Bool
  fmt : FmtSel
  nf : BitVec 3
  c : SReg
  b : VReg
  a : SReg
deriving DecidableEq, Repr

/-- The tail of VSTREAM (R221). -/
structure VStrm where
  fmt : FmtSel
  c : SReg
  b : SReg
  a : SReg
deriving DecidableEq, Repr

/-- The tail of VWAIT (R225). -/
structure VWt where
  k : KReg
  ge : Bool
  sc : Scope
  c : SReg
  b : VReg
  a : VReg
deriving DecidableEq, Repr

/-- The tail of MGATH (R279). -/
structure MGath where
  fmt : FmtSel
  l : Bool
  t : Bool
  nm1 : BitVec 6
  m : Bool
  b : VReg
  a : SReg
deriving DecidableEq, Repr

/-- The tail of MRD and MWR (R282). -/
structure MMove where
  k : KReg
  z : Bool
  col : Bool
  idx : BitVec 7
  t : Tile
deriving DecidableEq, Repr

/-- The tail of MLD and MST (R284). -/
structure MTile where
  fmt : FmtSel
  nm1 : BitVec 6
  c : SReg
  fr : BitVec 6
  a : SReg
deriving DecidableEq, Repr

/-- The tail of FORK (R286). -/
structure ForkArgs where
  xm : Bool
  xc : Bool
  rm : Bool
  rc : Bool
  b : SReg
  a : SReg
deriving DecidableEq, Repr

/-- The tail of COPYX (R300). -/
structure CopyXArgs where
  wm1 : BitVec 4
  dir : Bool
  s : Bool
  b : SReg
  c : SReg
  a : SReg
deriving DecidableEq, Repr

/-- The tail of FENCE (R164). -/
structure FenceArgs where
  sc : Scope
  win : Bool
  pr : Bool
  pw : Bool
  sr : Bool
  sw : Bool
deriving DecidableEq, Repr

/-- The tail of SVF (R167). -/
structure SvfArgs where
  sc : Scope
  dir : BitVec 2
  pr : Bool
  pw : Bool
  sr : Bool
  sw : Bool
deriving DecidableEq, Repr

/-- What a REGISTER_WRITE writes: a register of a hart through the control-register window (R237), one of BAR0 by its
offset (R409), up to 8 bytes that the management core writes in the on-chip window (R237), or a doubleword of a stack's
save area that the management firmware writes through its aperture (R395, R417). -/
inductive RegTarget where
  | window (hart idx : Nat)
  | bar0 (offset : Nat)
  | chip (pa bytes : Nat)
  | aperture (stack offset : Nat)
deriving DecidableEq, Repr

/-- The fused life-cycle values (R421). -/
inductive Fuse where
  | prod | debug | rma
deriving DecidableEq, Repr

/-- The kinds of an outbound window (R408). -/
inductive WinKind where
  | host | peer
deriving DecidableEq, Repr

/-- An outbound window as the host writes it: base and limit are device physical bits 47:12 (R408). -/
structure WinArgs where
  base : BitVec 36
  limit : BitVec 36
  r : Bool
  w : Bool
  kind : WinKind
deriving DecidableEq, Repr

/-- What one sample of the power controller sets: slice ceilings by package core, Veld start delays by stack in ns,
slowed islands, gated core islands, layers ordered to sleep and layers woken, each layer as 16 × stack + layer
(R65, R376, R424). -/
structure PowerSample where
  ceilings : List (Nat × Nat)
  delays : List (Nat × Nat)
  slow : List Nat
  gated : List Nat
  sleep : List Nat
  wake : List Nat
deriving DecidableEq, Repr

/-- The instructions and events of the part. -/
inductive Instr where
  | nop
  | add (d : SReg) (a : SReg) (b : SReg)
  | sub (d : SReg) (a : SReg) (b : SReg)
  | and (d : SReg) (a : SReg) (b : SReg)
  | or (d : SReg) (a : SReg) (b : SReg)
  | xor (d : SReg) (a : SReg) (b : SReg)
  | sll (d : SReg) (a : SReg) (b : SReg)
  | srl (d : SReg) (a : SReg) (b : SReg)
  | sra (d : SReg) (a : SReg) (b : SReg)
  | mul (d : SReg) (a : SReg) (b : SReg)
  | mulh (d : SReg) (a : SReg) (b : SReg)
  | mulhn (d : SReg) (a : SReg) (b : SReg)
  | div (d : SReg) (a : SReg) (b : SReg)
  | divn (d : SReg) (a : SReg) (b : SReg)
  | rem (d : SReg) (a : SReg) (b : SReg)
  | remn (d : SReg) (a : SReg) (b : SReg)
  | min (d : SReg) (a : SReg) (b : SReg)
  | max (d : SReg) (a : SReg) (b : SReg)
  | minn (d : SReg) (a : SReg) (b : SReg)
  | maxn (d : SReg) (a : SReg) (b : SReg)
  | slt (d : SReg) (a : SReg) (b : SReg)
  | sltn (d : SReg) (a : SReg) (b : SReg)
  | sel (d : SReg) (a : SReg) (b : SReg) (c : SReg)
  | clz (d : SReg) (a : SReg)
  | ctz (d : SReg) (a : SReg)
  | popc (d : SReg) (a : SReg)
  | brev (d : SReg) (a : SReg)
  | bext (d : SReg) (pos : BitVec 6) (lenm : BitVec 6) (a : SReg)
  | bins (d : SReg) (pos : BitVec 6) (lenm : BitVec 6) (a : SReg)
  | addiTl2 (d : SReg) (a : SReg) (imm : BitVec 10)
  | addiTl3 (d : SReg) (a : SReg) (imm : BitVec 32)
  | andiTl2 (d : SReg) (a : SReg) (imm : BitVec 10)
  | andiTl3 (d : SReg) (a : SReg) (imm : BitVec 32)
  | oriTl2 (d : SReg) (a : SReg) (imm : BitVec 10)
  | oriTl3 (d : SReg) (a : SReg) (imm : BitVec 32)
  | xoriTl2 (d : SReg) (a : SReg) (imm : BitVec 10)
  | xoriTl3 (d : SReg) (a : SReg) (imm : BitVec 32)
  | sltiTl2 (d : SReg) (a : SReg) (imm : BitVec 10)
  | sltiTl3 (d : SReg) (a : SReg) (imm : BitVec 32)
  | slli (d : SReg) (a : SReg) (n : BitVec 6)
  | srli (d : SReg) (a : SReg) (n : BitVec 6)
  | srai (d : SReg) (a : SReg) (n : BitVec 6)
  | liTl2 (d : SReg) (imm : BitVec 26)
  | liTl3 (d : SReg) (imm : BitVec 32)
  | lih (d : SReg) (imm : BitVec 32)
  | b (t : BitVec 26)
  | bl (d : SReg) (t : BitVec 26)
  | br (d : SReg)
  | blr (d : SReg) (a : SReg)
  | beq (d : SReg) (a : SReg) (t : BitVec 26)
  | bne (d : SReg) (a : SReg) (t : BitVec 26)
  | blt (d : SReg) (a : SReg) (t : BitVec 26)
  | bge (d : SReg) (a : SReg) (t : BitVec 26)
  | bltn (d : SReg) (a : SReg) (t : BitVec 26)
  | bgen (d : SReg) (a : SReg) (t : BitVec 26)
  | ldbTl2 (d : SReg) (a : SReg) (off : BitVec 10)
  | ldbTl3 (d : SReg) (a : SReg) (off : BitVec 32)
  | ldbzTl2 (d : SReg) (a : SReg) (off : BitVec 10)
  | ldbzTl3 (d : SReg) (a : SReg) (off : BitVec 32)
  | ldhTl2 (d : SReg) (a : SReg) (off : BitVec 10)
  | ldhTl3 (d : SReg) (a : SReg) (off : BitVec 32)
  | ldhzTl2 (d : SReg) (a : SReg) (off : BitVec 10)
  | ldhzTl3 (d : SReg) (a : SReg) (off : BitVec 32)
  | ldwTl2 (d : SReg) (a : SReg) (off : BitVec 10)
  | ldwTl3 (d : SReg) (a : SReg) (off : BitVec 32)
  | ldwzTl2 (d : SReg) (a : SReg) (off : BitVec 10)
  | ldwzTl3 (d : SReg) (a : SReg) (off : BitVec 32)
  | lddTl2 (d : SReg) (a : SReg) (off : BitVec 10)
  | lddTl3 (d : SReg) (a : SReg) (off : BitVec 32)
  | ldqTl2 (d : SReg) (a : SReg) (off : BitVec 10)
  | ldqTl3 (d : SReg) (a : SReg) (off : BitVec 32)
  | stbTl2 (d : SReg) (a : SReg) (off : BitVec 10)
  | stbTl3 (d : SReg) (a : SReg) (off : BitVec 32)
  | sthTl2 (d : SReg) (a : SReg) (off : BitVec 10)
  | sthTl3 (d : SReg) (a : SReg) (off : BitVec 32)
  | stwTl2 (d : SReg) (a : SReg) (off : BitVec 10)
  | stwTl3 (d : SReg) (a : SReg) (off : BitVec 32)
  | stdTl2 (d : SReg) (a : SReg) (off : BitVec 10)
  | stdTl3 (d : SReg) (a : SReg) (off : BitVec 32)
  | stqTl2 (d : SReg) (a : SReg) (off : BitVec 10)
  | stqTl3 (d : SReg) (a : SReg) (off : BitVec 32)
  | prefTl2 (h : BitVec 6) (a : SReg) (off : BitVec 10)
  | prefTl3 (h : BitVec 6) (a : SReg) (off : BitVec 32)
  | lda (d : SReg) (sc : Scope) (sz : Bool) (a : SReg) (off : BitVec 10)
  | stl (d : SReg) (sc : Scope) (sz : Bool) (a : SReg) (off : BitVec 10)
  | amoadd (d : SReg) (b : SReg) (a : SReg) (sz : Bool) (sc : Scope)
  | amoand (d : SReg) (b : SReg) (a : SReg) (sz : Bool) (sc : Scope)
  | amoor (d : SReg) (b : SReg) (a : SReg) (sz : Bool) (sc : Scope)
  | amoxor (d : SReg) (b : SReg) (a : SReg) (sz : Bool) (sc : Scope)
  | amomin (d : SReg) (b : SReg) (a : SReg) (sz : Bool) (sc : Scope)
  | amomax (d : SReg) (b : SReg) (a : SReg) (sz : Bool) (sc : Scope)
  | amoswap (d : SReg) (b : SReg) (a : SReg) (sz : Bool) (sc : Scope)
  | amocas (d : SReg) (b : SReg) (c : SReg) (a : SReg) (sz : Bool) (sc : Scope)
  | amocasq (d : SReg) (b : SReg) (c : SReg) (a : SReg) (sc : Scope)
  | crrd (d : SReg) (idx : BitVec 10)
  | crwr (d : SReg) (idx : BitVec 10) (a : SReg)
  | crset (d : SReg) (idx : BitVec 10) (a : SReg)
  | crclr (d : SReg) (idx : BitVec 10) (a : SReg)
  | ecall
  | ebrk
  | tret
  | yield
  | wfi
  | drainst
  | ifence
  | xinvPage (psz : BitVec 4) (a : SReg)
  | xinvCtx
  | xinvRdt
  | xinvAll
  | sptsw (d : SReg) (a : SReg)
  | tkill (a : SReg)
  | fence (x : FenceArgs)
  | svf (x : SvfArgs)
  | setvl (d : SReg) (q : VReq) (a : SReg)
  | setvli (d : SReg) (q : VReq) (avl : BitVec 18)
  | vadd (d : VReg) (x : VBin)
  | vsub (d : VReg) (x : VBin)
  | vmul (d : VReg) (x : VBin)
  | vmulh (d : VReg) (x : VBin)
  | vmin (d : VReg) (x : VBin)
  | vmax (d : VReg) (x : VBin)
  | vminn (d : VReg) (x : VBin)
  | vmaxn (d : VReg) (x : VBin)
  | vand (d : VReg) (x : VBin)
  | vor (d : VReg) (x : VBin)
  | vxor (d : VReg) (x : VBin)
  | vsll (d : VReg) (x : VBin)
  | vsrl (d : VReg) (x : VBin)
  | vsra (d : VReg) (x : VBin)
  | vsadd (d : VReg) (x : VBin)
  | vssub (d : VReg) (x : VBin)
  | vwmul (d : VReg) (x : VBin)
  | vwmacc (d : VReg) (x : VBin)
  | vwmaccsn (d : VReg) (x : VBin)
  | vnsra (d : VReg) (x : VBin)
  | vmseq (d : KReg) (x : VBin)
  | vmslt (d : KReg) (x : VBin)
  | vmsltn (d : KReg) (x : VBin)
  | vfadd (d : VReg) (x : VBin)
  | vfsub (d : VReg) (x : VBin)
  | vfmul (d : VReg) (x : VBin)
  | vfma (d : VReg) (x : VFma)
  | vfnma (d : VReg) (x : VFma)
  | vfmin (d : VReg) (x : VBin)
  | vfmax (d : VReg) (x : VBin)
  | vfdiv (d : VReg) (x : VBin)
  | vfsqrt (d : VReg) (x : VUn)
  | vfexp2 (d : VReg) (x : VUn)
  | vfrcp (d : VReg) (x : VUn)
  | vmfeq (d : KReg) (x : VBin)
  | vmflt (d : KReg) (x : VBin)
  | vmfle (d : KReg) (x : VBin)
  | vfcvt (d : VReg) (x : VCvt)
  | vredsum (d : SReg) (x : VRed)
  | vredosum (d : SReg) (x : VRed)
  | vredmax (d : SReg) (x : VRed)
  | vredmin (d : SReg) (x : VRed)
  | vfredsum (d : SReg) (x : VRed)
  | vfredosum (d : SReg) (x : VRed)
  | vfredmax (d : SReg) (x : VRed)
  | vslideup (d : VReg) (x : VBin)
  | vslidedn (d : VReg) (x : VBin)
  | vperm (d : VReg) (x : VBin)
  | vcompress (d : VReg) (x : VUn)
  | vexpand (d : VReg) (x : VUn)
  | vbcast (d : VReg) (x : VBcast)
  | vext (d : SReg) (x : VExt)
  | vprefix (d : VReg) (x : VUn)
  | kand (d : KReg) (a : KReg) (b : KReg)
  | kor (d : KReg) (a : KReg) (b : KReg)
  | kxor (d : KReg) (a : KReg) (b : KReg)
  | knot (d : KReg) (a : KReg)
  | kpopc (d : SReg) (a : KReg)
  | kfirst (d : SReg) (a : KReg)
  | kset (d : KReg) (a : SReg)
  | vldTl2 (d : VReg) (x : VMem)
  | vldTl3 (d : VReg) (x : VMem) (off : BitVec 16)
  | vstTl2 (d : VReg) (x : VMem)
  | vstTl3 (d : VReg) (x : VMem) (off : BitVec 16)
  | vldsTl2 (d : VReg) (x : VMem)
  | vldsTl3 (d : VReg) (x : VMem) (off : BitVec 16)
  | vstsTl2 (d : VReg) (x : VMem)
  | vstsTl3 (d : VReg) (x : VMem) (off : BitVec 16)
  | vlsegTl2 (d : VReg) (x : VMem)
  | vlsegTl3 (d : VReg) (x : VMem) (off : BitVec 16)
  | vssegTl2 (d : VReg) (x : VMem)
  | vssegTl3 (d : VReg) (x : VMem) (off : BitVec 16)
  | vgatherTl2 (d : VReg) (x : VMem)
  | vgatherTl3 (d : VReg) (x : VMem) (off : BitVec 16)
  | vscatterTl2 (d : VReg) (x : VMem)
  | vscatterTl3 (d : VReg) (x : VMem) (off : BitVec 16)
  | vgatherpTl2 (d : VReg) (x : VMem)
  | vgatherpTl3 (d : VReg) (x : VMem) (off : BitVec 16)
  | vscatterpTl2 (d : VReg) (x : VMem)
  | vscatterpTl3 (d : VReg) (x : VMem) (off : BitVec 16)
  | vstqTl2 (d : VReg) (x : VMem)
  | vstqTl3 (d : VReg) (x : VMem) (off : BitVec 16)
  | vldqTl2 (d : VReg) (x : VMem)
  | vldqTl3 (d : VReg) (x : VMem) (off : BitVec 16)
  | vstream (d : VReg) (x : VStrm)
  | vunbind (d : VReg)
  | vwait (d : KReg) (x : VWt)
  | mzero (d : Tile)
  | mopa (d : Tile) (a : VReg) (b : VReg)
  | mops (d : Tile) (a : VReg) (b : VReg)
  | mopal (d : Tile) (km1 : BitVec 6)
  | mopax (d : Tile) (k : KReg)
  | mgath (d : BitVec 6) (x : MGath)
  | mrd (d : VReg) (x : MMove)
  | mwr (d : VReg) (x : MMove)
  | mldTl2 (d : Tile) (x : MTile)
  | mldTl3 (d : Tile) (x : MTile) (off : BitVec 16)
  | mstTl2 (d : Tile) (x : MTile)
  | mstTl3 (d : Tile) (x : MTile) (off : BitVec 16)
  | fork (x : ForkArgs)
  | rdv
  | copy (b : SReg) (a : SReg)
  | copyx (x : CopyXArgs)
  | tbinit (a : SReg) (b : SReg)
  | tbarrive (a : SReg)
  | tbexpect (a : SReg) (b : SReg) (arv : Bool)
  | tbwait (a : SReg) (b : SReg)
  | tlwait (d : SReg) (t : BitVec 2) (b : SReg)
  | tlread (d : SReg) (sel : BitVec 2) (t : BitVec 2)
  | cbar
  | bbar
  | glaunch (d : SReg) (q : BitVec 4) (a : SReg)
  | nend
  | ljoin (d : SReg) (off : BitVec 10) (add : Bool) (a : SReg)
  | lldt (d : SReg) (off : BitVec 10) (b : SReg) (a : SReg)
  | lflush
  | colst (d : VReg) (off : BitVec 10) (b : SReg) (a : SReg)
  | colwait (d : SReg)
  | colwaitLayers (d : SReg) (a : SReg)
  | colwaitSeq (d : SReg) (a : SReg)
  | discard (a : SReg) (b : SReg)
  | migr (a : SReg) (b : SReg)
  | vlaunch (d : SReg) (a : SReg)
  | vlaunchClear (d : SReg)
  | vrlock (d : SReg) (a : SReg)
  | vrunlock (dv : Bool) (a : SReg)
  | vzero (d : SReg) (dv : Bool) (a : SReg) (b : SReg)
  | vclone (d : SReg) (dv : Bool) (a : SReg) (b : SReg) (c : SReg)
  | vquery (d : SReg) (sel : BitVec 4) (a : SReg)
  | evRegisterWrite (r : RegTarget) (v : BitVec 64)
  | evSfrqhWrite (h : Nat) (v : BitVec 64)
  | evXschedWrite (v : BitVec 64)
  | evColallocWrite (st : Nat) (v : BitVec 64)
  | evRouteTableWrite (st : Nat) (ent : Nat) (v : BitVec 32)
  | evMeshPacketArrive (p : Nat)
  | evBackpressureSignal (l : Nat) (vc : Nat) (on : Bool)
  | evFabricRequestReceive (r : Nat)
  | evStoreFaultPost (r : Nat)
  | evImpreciseDelivery (h : Nat)
  | evInterrupt (h : Nat)
  | evRingRecordRead (st : Nat) (q : Nat)
  | evDispatch (st : Nat)
  | evNodeAgingStep (nd : Nat)
  | evLaneReclaimDeadline (bd : Nat)
  | evDrainDeadline (h : Nat) (el : Nat)
  | evQuiesceMarkerReturn (bd : Nat) (m : Nat)
  | evSlotSaveComplete (bd : Nat)
  | evSlotRestoreComplete (bd : Nat)
  | evGraphCompletion (g : Nat)
  | evFatalRemoval (cid : Nat)
  | evHangWatchdog (bd : Nat)
  | evPowerControllerSample (x : PowerSample)
  | evPowerReductionDeadline (core : Nat)
  | evCopyGranule (core : Nat)
  | evCopyxTile (core : Nat)
  | evStreamRefill (h : Nat) (grp : Nat)
  | evVeldOperationStart (st : Nat)
  | evVeldBroadcast (st : Nat)
  | evVeldStep (st : Nat) (layer : Nat)
  | evBankRefresh (st : Nat) (layer : Nat) (bank : Nat)
  | evGapAccess (st : Nat) (layer : Nat) (bank : Nat)
  | evVeldOperationComplete (st : Nat)
  | evLockTimeOut (st : Nat)
  | evVrlockTimeOut (st : Nat) (ent : Nat)
  | evExchangeRound
  | evExchangeLineReceive (i : Nat) (deliver : Bool)
  | evColEntryBroadcast (st : Nat)
  | evColReplay (st : Nat)
  | evColResync (st : Nat) (layer : Nat)
  | evColFrameBoundary (st : Nat)
  | evLayerPowered (st : Nat) (layer : Nat)
  | evVwaitTimeOut (h : Nat)
  | evLldtTimeOut (h : Nat)
  | evColwaitTimeOut (h : Nat)
  | evRequestResend (r : Nat)
  | evMeshLinkDown (l : Nat)
  | evCxlLinkDown (p : Nat)
  | evLinkDownPhaseEnd (p : Nat) (st : Nat)
  | evCxlLinkTrained (p : Nat) (rate : Nat) (width : Nat)
  | evPctlEnWrite (p : Nat) (en : Bool)
  | evCxlMemRead (addr : Nat)
  | evCxlMemWrite (addr : Nat) (data : BitVec 512)
  | evCxlCacheSnoop (addr : Nat) (data : Option (BitVec 512))
  | evUnsupportedRequest (p : Nat)
  | evOutboundWindowWrite (p : Nat) (ix : Nat) (x : WinArgs)
  | evQtailWrite (st : Nat) (q : Nat) (tail : BitVec 16)
  | evQueueDisable (st : Nat) (q : Nat)
  | evQueueEnable (st : Nat) (q : Nat)
  | evMbInstallContext (pa : Nat)
  | evMbRemoveContext (cid : Nat)
  | evMbLoadKey (key : Nat) (pa : Nat)
  | evMbArbitration (st : Nat) (bal : Bool)
  | evMbDebugHalt (st : Nat)
  | evMbDebugRelease (st : Nat)
  | evMbLifeCycleChange (dst : Fuse)
  | evMbHealthRecord (pa : Nat)
  | evPclampWrite (host : Bool) (v : BitVec 12)
  | evReset
  | evBootImageVerify (ok : Bool)
  | evWipeComplete
  | evFabricResponseReceive (r : Nat)
  | evBaseDieRowBufferTransfer (st : Nat)
  | evDebuggerArm (h : Nat) (on : Bool)
deriving DecidableEq, Repr

end Sys2Proof
end

