-- ==== Sys2Proof/WellFormed.lean ====
section
/-! DEFINITION. What an encoding may hold: the conditions of R85, R95, R154, R157, R162, R164, R167, R178, R196 to
R209, R221, R277 to R286, R300 and R345 on the operands of an instruction. An encoding that breaks one takes the
illegal-instruction trap of R95. -/
namespace Sys2Proof

/-- The operand is a vector group (FORM 0b00). -/
def VSrc.isVec : VSrc → Bool
  | .v _ => true
  | .s _ => false
  | .i _ => false

/-- The operand is the immediate (FORM 0b10). -/
def VSrc.isImm : VSrc → Bool
  | .v _ => false
  | .s _ => false
  | .i _ => true

/-- The combinations of FORK fields that R286 allows. -/
def ForkArgs.ok (x : ForkArgs) : Bool :=
  !(x.rm && x.xm) && !(x.rc && x.xc) && !(x.rm && x.a.val != 0) && !(x.rc && x.b.val != 0) &&
    (x.xm || x.xc || x.rm || x.rc || x.b.val != 0 || x.a.val != 0)

/-- The combinations of FENCE fields that R164 allows. -/
def FenceArgs.ok (x : FenceArgs) : Bool :=
  (x.pr || x.pw) && (x.sr || x.sw) && !(x.win && !x.pw)

/-- The combinations of SVF fields that R167 allows. -/
def SvfArgs.ok (x : SvfArgs) : Bool :=
  x.dir.toNat != 0 && (x.pr || x.pw) && (x.sr || x.sw)

/-- The instruction is one that its encoding rules allow. -/
def wellFormed (i : Instr) : Bool :=
  match i with
  | .nop => true
  | .add _ _ _ => true
  | .sub _ _ _ => true
  | .and _ _ _ => true
  | .or _ _ _ => true
  | .xor _ _ _ => true
  | .sll _ _ _ => true
  | .srl _ _ _ => true
  | .sra _ _ _ => true
  | .mul _ _ _ => true
  | .mulh _ _ _ => true
  | .mulhn _ _ _ => true
  | .div _ _ _ => true
  | .divn _ _ _ => true
  | .rem _ _ _ => true
  | .remn _ _ _ => true
  | .min _ _ _ => true
  | .max _ _ _ => true
  | .minn _ _ _ => true
  | .maxn _ _ _ => true
  | .slt _ _ _ => true
  | .sltn _ _ _ => true
  | .sel _ _ _ _ => true
  | .clz _ _ => true
  | .ctz _ _ => true
  | .popc _ _ => true
  | .brev _ _ => true
  | .bext _ _ _ _ => true
  | .bins _ _ _ _ => true
  | .addiTl2 _ _ _ => true
  | .addiTl3 _ _ _ => true
  | .andiTl2 _ _ _ => true
  | .andiTl3 _ _ _ => true
  | .oriTl2 _ _ _ => true
  | .oriTl3 _ _ _ => true
  | .xoriTl2 _ _ _ => true
  | .xoriTl3 _ _ _ => true
  | .sltiTl2 _ _ _ => true
  | .sltiTl3 _ _ _ => true
  | .slli _ _ _ => true
  | .srli _ _ _ => true
  | .srai _ _ _ => true
  | .liTl2 _ _ => true
  | .liTl3 _ _ => true
  | .lih _ _ => true
  | .b t => t.toNat < 33554432 && t.toNat % 32 != 0
  | .bl _ t => t.toNat < 33554432 && t.toNat % 32 != 0
  | .br _ => true
  | .blr _ _ => true
  | .beq _ _ t => t.toNat < 33554432 && t.toNat % 32 != 0
  | .bne _ _ t => t.toNat < 33554432 && t.toNat % 32 != 0
  | .blt _ _ t => t.toNat < 33554432 && t.toNat % 32 != 0
  | .bge _ _ t => t.toNat < 33554432 && t.toNat % 32 != 0
  | .bltn _ _ t => t.toNat < 33554432 && t.toNat % 32 != 0
  | .bgen _ _ t => t.toNat < 33554432 && t.toNat % 32 != 0
  | .ldbTl2 _ _ _ => true
  | .ldbTl3 _ _ _ => true
  | .ldbzTl2 _ _ _ => true
  | .ldbzTl3 _ _ _ => true
  | .ldhTl2 _ _ _ => true
  | .ldhTl3 _ _ _ => true
  | .ldhzTl2 _ _ _ => true
  | .ldhzTl3 _ _ _ => true
  | .ldwTl2 _ _ _ => true
  | .ldwTl3 _ _ _ => true
  | .ldwzTl2 _ _ _ => true
  | .ldwzTl3 _ _ _ => true
  | .lddTl2 _ _ _ => true
  | .lddTl3 _ _ _ => true
  | .ldqTl2 d _ _ => d.val % 2 == 0
  | .ldqTl3 d _ _ => d.val % 2 == 0
  | .stbTl2 _ _ _ => true
  | .stbTl3 _ _ _ => true
  | .sthTl2 _ _ _ => true
  | .sthTl3 _ _ _ => true
  | .stwTl2 _ _ _ => true
  | .stwTl3 _ _ _ => true
  | .stdTl2 _ _ _ => true
  | .stdTl3 _ _ _ => true
  | .stqTl2 d _ _ => d.val % 2 == 0
  | .stqTl3 d _ _ => d.val % 2 == 0
  | .prefTl2 h _ _ => h.toNat < 3
  | .prefTl3 h _ _ => h.toNat < 3
  | .lda _ _ _ _ _ => true
  | .stl _ _ _ _ _ => true
  | .amoadd _ _ _ _ _ => true
  | .amoand _ _ _ _ _ => true
  | .amoor _ _ _ _ _ => true
  | .amoxor _ _ _ _ _ => true
  | .amomin _ _ _ _ _ => true
  | .amomax _ _ _ _ _ => true
  | .amoswap _ _ _ _ _ => true
  | .amocas _ _ _ _ _ _ => true
  | .amocasq d b c _ _ => d.val % 2 == 0 && b.val % 2 == 0 && c.val % 2 == 0
  | .crrd _ _ => true
  | .crwr _ _ _ => true
  | .crset _ _ _ => true
  | .crclr _ _ _ => true
  | .ecall => true
  | .ebrk => true
  | .tret => true
  | .yield => true
  | .wfi => true
  | .drainst => true
  | .ifence => true
  | .xinvPage psz _ => psz.toNat < 12
  | .xinvCtx => true
  | .xinvRdt => true
  | .xinvAll => true
  | .sptsw _ _ => true
  | .tkill _ => true
  | .fence x => x.ok
  | .svf x => x.ok
  | .setvl _ _ _ => true
  | .setvli _ _ _ => true
  | .vadd _ x => !x.n
  | .vsub _ x => !x.n
  | .vmul _ x => !x.n
  | .vmulh _ _ => true
  | .vmin _ x => !x.n
  | .vmax _ x => !x.n
  | .vminn _ x => !x.n
  | .vmaxn _ x => !x.n
  | .vand _ x => !x.n
  | .vor _ x => !x.n
  | .vxor _ x => !x.n
  | .vsll _ x => !x.n
  | .vsrl _ x => !x.n
  | .vsra _ x => !x.n
  | .vsadd _ _ => true
  | .vssub _ _ => true
  | .vwmul _ _ => true
  | .vwmacc _ _ => true
  | .vwmaccsn _ x => !x.n
  | .vnsra _ _ => true
  | .vmseq _ x => !x.n
  | .vmslt _ x => !x.n
  | .vmsltn _ x => !x.n
  | .vfadd _ x => !x.n && !x.src.isImm
  | .vfsub _ x => !x.n && !x.src.isImm
  | .vfmul _ x => !x.n && !x.src.isImm
  | .vfma _ x => !x.src.isImm
  | .vfnma _ x => !x.src.isImm
  | .vfmin _ x => !x.n && !x.src.isImm
  | .vfmax _ x => !x.n && !x.src.isImm
  | .vfdiv _ x => !x.n && !x.src.isImm
  | .vfsqrt _ _ => true
  | .vfexp2 _ _ => true
  | .vfrcp _ _ => true
  | .vmfeq _ x => !x.n && !x.src.isImm
  | .vmflt _ x => !x.n && !x.src.isImm
  | .vmfle _ x => !x.n && !x.src.isImm
  | .vfcvt _ x => x.kind.toNat < 6
  | .vredsum _ _ => true
  | .vredosum _ _ => true
  | .vredmax _ _ => true
  | .vredmin _ _ => true
  | .vfredsum _ x => !x.n
  | .vfredosum _ x => !x.n
  | .vfredmax _ x => !x.n
  | .vslideup _ x => !x.n && !x.src.isVec
  | .vslidedn _ x => !x.n && !x.src.isVec
  | .vperm _ x => !x.n && x.src.isVec
  | .vcompress _ _ => true
  | .vexpand _ _ => true
  | .vbcast _ x => !x.src.isVec
  | .vext _ x => !x.src.isVec
  | .vprefix _ _ => true
  | .kand _ _ _ => true
  | .kor _ _ _ => true
  | .kxor _ _ _ => true
  | .knot _ _ => true
  | .kpopc _ _ => true
  | .kfirst _ _ => true
  | .kset _ _ => true
  | .vldTl2 _ x => x.nf.toNat == 0 && x.c.val == 0 && x.b.val == 0
  | .vldTl3 _ x _ => x.nf.toNat == 0 && x.c.val == 0 && x.b.val == 0
  | .vstTl2 _ x => !x.z && x.nf.toNat == 0 && x.c.val == 0 && x.b.val == 0
  | .vstTl3 _ x _ => !x.z && x.nf.toNat == 0 && x.c.val == 0 && x.b.val == 0
  | .vldsTl2 _ x => x.nf.toNat == 0 && x.b.val == 0
  | .vldsTl3 _ x _ => x.nf.toNat == 0 && x.b.val == 0
  | .vstsTl2 _ x => !x.z && x.nf.toNat == 0 && x.b.val == 0
  | .vstsTl3 _ x _ => !x.z && x.nf.toNat == 0 && x.b.val == 0
  | .vlsegTl2 _ x => x.nf.toNat != 0 && x.c.val == 0 && x.b.val == 0
  | .vlsegTl3 _ x _ => x.nf.toNat != 0 && x.c.val == 0 && x.b.val == 0
  | .vssegTl2 _ x => !x.z && x.nf.toNat != 0 && x.c.val == 0 && x.b.val == 0
  | .vssegTl3 _ x _ => !x.z && x.nf.toNat != 0 && x.c.val == 0 && x.b.val == 0
  | .vgatherTl2 _ x => x.nf.toNat == 0 && x.c.val == 0
  | .vgatherTl3 _ x _ => x.nf.toNat == 0 && x.c.val == 0
  | .vscatterTl2 _ x => !x.z && x.nf.toNat == 0 && x.c.val == 0
  | .vscatterTl3 _ x _ => !x.z && x.nf.toNat == 0 && x.c.val == 0
  | .vgatherpTl2 _ x => x.nf.toNat == 0 && x.c.val < 16
  | .vgatherpTl3 _ x _ => x.nf.toNat == 0 && x.c.val < 16
  | .vscatterpTl2 _ x => !x.z && x.nf.toNat == 0 && x.c.val < 16
  | .vscatterpTl3 _ x _ => !x.z && x.nf.toNat == 0 && x.c.val < 16
  | .vstqTl2 _ x => !x.z && x.nf.toNat == 0 && x.b.val == 0
  | .vstqTl3 _ x _ => !x.z && x.nf.toNat == 0 && x.b.val == 0
  | .vldqTl2 _ x => x.nf.toNat == 0 && x.b.val == 0
  | .vldqTl3 _ x _ => x.nf.toNat == 0 && x.b.val == 0
  | .vstream d _ => 24 ≤ d.val
  | .vunbind d => 24 ≤ d.val
  | .vwait _ _ => true
  | .mzero _ => true
  | .mopa _ _ _ => true
  | .mops _ _ _ => true
  | .mopal _ km1 => km1.toNat < 48
  | .mopax _ _ => true
  | .mgath d x => d.toNat + x.nm1.toNat < 48
  | .mrd _ x => x.col || x.idx.toNat < 64
  | .mwr _ x => !x.z && (x.col || x.idx.toNat < 64)
  | .mldTl2 _ x => x.fr.toNat + x.nm1.toNat < 64
  | .mldTl3 _ x _ => x.fr.toNat + x.nm1.toNat < 64
  | .mstTl2 _ x => x.fr.toNat + x.nm1.toNat < 64
  | .mstTl3 _ x _ => x.fr.toNat + x.nm1.toNat < 64
  | .fork x => x.ok
  | .rdv => true
  | .copy _ _ => true
  | .copyx x => x.dir || !x.s
  | .tbinit _ _ => true
  | .tbarrive _ => true
  | .tbexpect _ _ _ => true
  | .tbwait _ _ => true
  | .tlwait _ _ _ => true
  | .tlread _ _ _ => true
  | .cbar => true
  | .bbar => true
  | .glaunch _ _ _ => true
  | .nend => true
  | .ljoin _ _ _ _ => true
  | .lldt _ _ _ _ => true
  | .lflush => true
  | .colst _ _ _ _ => true
  | .colwait _ => true
  | .colwaitLayers _ _ => true
  | .colwaitSeq _ _ => true
  | .discard _ _ => true
  | .migr _ _ => true
  | .vlaunch _ _ => true
  | .vlaunchClear _ => true
  | .vrlock _ _ => true
  | .vrunlock _ _ => true
  | .vzero _ _ _ _ => true
  | .vclone _ _ _ _ _ => true
  | .vquery _ sel _ => sel.toNat < 6
  | .evRegisterWrite _ _ => true
  | .evSfrqhWrite _ _ => true
  | .evXschedWrite _ => true
  | .evColallocWrite _ _ => true
  | .evRouteTableWrite _ _ _ => true
  | .evMeshPacketArrive _ => true
  | .evBackpressureSignal _ _ _ => true
  | .evFabricRequestReceive _ => true
  | .evStoreFaultPost _ => true
  | .evImpreciseDelivery _ => true
  | .evInterrupt _ => true
  | .evRingRecordRead _ _ => true
  | .evDispatch _ => true
  | .evNodeAgingStep _ => true
  | .evLaneReclaimDeadline _ => true
  | .evDrainDeadline _ _ => true
  | .evQuiesceMarkerReturn _ _ => true
  | .evSlotSaveComplete _ => true
  | .evSlotRestoreComplete _ => true
  | .evGraphCompletion _ => true
  | .evFatalRemoval _ => true
  | .evHangWatchdog _ => true
  | .evPowerControllerSample _ => true
  | .evPowerReductionDeadline _ => true
  | .evCopyGranule _ => true
  | .evCopyxTile _ => true
  | .evStreamRefill _ _ => true
  | .evVeldOperationStart _ => true
  | .evVeldBroadcast _ => true
  | .evVeldStep _ _ => true
  | .evBankRefresh _ _ _ => true
  | .evGapAccess _ _ _ => true
  | .evVeldOperationComplete _ => true
  | .evLockTimeOut _ => true
  | .evVrlockTimeOut _ _ => true
  | .evExchangeRound => true
  | .evExchangeLineReceive _ _ => true
  | .evColEntryBroadcast _ => true
  | .evColReplay _ => true
  | .evColResync _ _ => true
  | .evColFrameBoundary _ => true
  | .evLayerPowered _ _ => true
  | .evVwaitTimeOut _ => true
  | .evLldtTimeOut _ => true
  | .evColwaitTimeOut _ => true
  | .evRequestResend _ => true
  | .evMeshLinkDown _ => true
  | .evCxlLinkDown _ => true
  | .evLinkDownPhaseEnd _ _ => true
  | .evCxlLinkTrained _ _ _ => true
  | .evPctlEnWrite _ _ => true
  | .evCxlMemRead _ => true
  | .evCxlMemWrite _ _ => true
  | .evCxlCacheSnoop _ _ => true
  | .evUnsupportedRequest _ => true
  | .evOutboundWindowWrite _ _ _ => true
  | .evQtailWrite _ _ _ => true
  | .evQueueDisable _ _ => true
  | .evQueueEnable _ _ => true
  | .evMbInstallContext _ => true
  | .evMbRemoveContext _ => true
  | .evMbLoadKey _ _ => true
  | .evMbArbitration _ _ => true
  | .evMbDebugHalt _ => true
  | .evMbDebugRelease _ => true
  | .evMbLifeCycleChange _ => true
  | .evMbHealthRecord _ => true
  | .evPclampWrite _ _ => true
  | .evReset => true
  | .evBootImageVerify _ => true
  | .evWipeComplete => true
  | .evFabricResponseReceive _ => true
  | .evBaseDieRowBufferTransfer _ => true
  | .evDebuggerArm _ _ => true

end Sys2Proof
end

