-- ==== Sys2Proof/Decode.lean ====
section
/-! DEFINITION. Encoding and decoding of heads and tails, from the opcode map of R92 and the tail layouts of R82 and of
each instruction. An encoding is accepted when the instruction read from its fields is well formed and encodes to the
same head and tail, so that a nonzero reserved or unused field, a reserved value or a register number outside its
file is refused (R95). -/
namespace Sys2Proof

/-- The fields of a head and its tail value (R78, R79). -/
structure Enc where
  tl : Nat
  op : Nat
  d : Nat
  tail : Nat
deriving DecidableEq, Repr

/-- The 16-bit head: TL in bits 15:14, OP in 13:6, D in 5:0 (R78). -/
def Enc.head (e : Enc) : Nat := e.tl * 16384 + e.op * 64 + e.d

/-- The fields of a 16-bit head with the value of its tail (R78, R79). -/
def Enc.ofHead (head tail : Nat) : Enc :=
  { tl := head / 16384 % 4, op := head / 64 % 256, d := head % 64, tail := tail }

/-- Bit `lo` of a tail. -/
def bitRaw (t lo : Nat) : Bool := t / 2 ^ lo % 2 == 1

/-- The 2-bit scope code (R94). -/
def Scope.code : Scope → Nat
  | .co => 0
  | .st => 1
  | .dv => 2
  | .sy => 3

/-- The scope of a 2-bit code (R94). -/
def Scope.raw (t : Nat) : Scope :=
  match t % 4 with
  | 0 => .co
  | 1 => .st
  | 2 => .dv
  | _ => .sy

/-- FO at bit `fo` and FMT from bit `lo` (R209, R221, R279, R284). -/
def fmtEnc (f : FmtSel) (fo lo : Nat) : Nat :=
  match f with
  | none => 0
  | some c => 2 ^ fo + c.toNat * 2 ^ lo

/-- The format selection of a tail; with FO = 0 the FMT field is unused. -/
def fmtRaw (t fo lo : Nat) : FmtSel :=
  if bitRaw t fo then some (BitVec.ofNat 5 (t / 2 ^ lo)) else none

/-- FORM, B and I6 of the second operand (R196). -/
def VSrc.enc : VSrc → Nat
  | .v r => r.val * 64
  | .s r => 33554432 + r.val * 64
  | .i imm => 67108864 + imm.toNat * 262144

/-- The second operand of a tail; FORM 0b11 is reserved and is read as an immediate that does not encode back. -/
def VSrc.raw (t : Nat) : VSrc :=
  match t / 33554432 % 4 with
  | 0 => .v (Fin.ofNat 32 (t / 64))
  | 1 => .s (Fin.ofNat 64 (t / 64))
  | _ => .i (BitVec.ofNat 6 (t / 262144))

/-- The tail fields of `VBin`. -/
def VBin.enc (x : VBin) : Nat :=
  x.k.val * 268435456 + x.z.toNat * 134217728 + x.n.toNat * 16777216 + (x.src.enc) + x.a.val

/-- `VBin` as its fields read. -/
def VBin.raw (t : Nat) : VBin :=
  { k := Fin.ofNat 16 (t / 268435456), z := bitRaw t 27, n := bitRaw t 24, src := VSrc.raw t, a := Fin.ofNat 32 t }

/-- The tail fields of `VFma`. -/
def VFma.enc (x : VFma) : Nat :=
  x.k.val * 268435456 + x.z.toNat * 134217728 + (x.src.enc) + x.a.val + x.c.val * 4096

/-- `VFma` as its fields read. -/
def VFma.raw (t : Nat) : VFma :=
  { k := Fin.ofNat 16 (t / 268435456), z := bitRaw t 27, src := VSrc.raw t, a := Fin.ofNat 32 t, c := Fin.ofNat 32 (t / 4096) }

/-- The tail fields of `VUn`. -/
def VUn.enc (x : VUn) : Nat :=
  x.k.val * 268435456 + x.z.toNat * 134217728 + x.a.val

/-- `VUn` as its fields read. -/
def VUn.raw (t : Nat) : VUn :=
  { k := Fin.ofNat 16 (t / 268435456), z := bitRaw t 27, a := Fin.ofNat 32 t }

/-- The tail fields of `VCvt`. -/
def VCvt.enc (x : VCvt) : Nat :=
  x.k.val * 268435456 + x.z.toNat * 134217728 + x.kind.toNat * 262144 + x.a.val

/-- `VCvt` as its fields read. -/
def VCvt.raw (t : Nat) : VCvt :=
  { k := Fin.ofNat 16 (t / 268435456), z := bitRaw t 27, kind := BitVec.ofNat 6 (t / 262144), a := Fin.ofNat 32 t }

/-- The tail fields of `VRed`. -/
def VRed.enc (x : VRed) : Nat :=
  x.k.val * 268435456 + x.n.toNat * 16777216 + x.b.val * 64 + x.a.val + 33554432

/-- `VRed` as its fields read. -/
def VRed.raw (t : Nat) : VRed :=
  { k := Fin.ofNat 16 (t / 268435456), n := bitRaw t 24, b := Fin.ofNat 64 (t / 64), a := Fin.ofNat 32 t }

/-- The tail fields of `VBcast`. -/
def VBcast.enc (x : VBcast) : Nat :=
  x.k.val * 268435456 + x.z.toNat * 134217728 + (x.src.enc)

/-- `VBcast` as its fields read. -/
def VBcast.raw (t : Nat) : VBcast :=
  { k := Fin.ofNat 16 (t / 268435456), z := bitRaw t 27, src := VSrc.raw t }

/-- The tail fields of `VExt`. -/
def VExt.enc (x : VExt) : Nat :=
  x.n.toNat * 16777216 + (x.src.enc) + x.a.val

/-- `VExt` as its fields read. -/
def VExt.raw (t : Nat) : VExt :=
  { n := bitRaw t 24, src := VSrc.raw t, a := Fin.ofNat 32 t }

/-- The tail fields of `VMem`. -/
def VMem.enc (x : VMem) : Nat :=
  x.k.val * 268435456 + x.z.toNat * 134217728 + fmtEnc x.fmt 26 21 + x.nf.toNat * 262144 + x.c.val * 4096 + x.b.val * 64 + x.a.val

/-- `VMem` as its fields read. -/
def VMem.raw (t : Nat) : VMem :=
  { k := Fin.ofNat 16 (t / 268435456), z := bitRaw t 27, fmt := fmtRaw t 26 21, nf := BitVec.ofNat 3 (t / 262144), c := Fin.ofNat 64 (t / 4096), b := Fin.ofNat 32 (t / 64), a := Fin.ofNat 64 t }

/-- The tail fields of `VStrm`. -/
def VStrm.enc (x : VStrm) : Nat :=
  fmtEnc x.fmt 26 21 + x.c.val * 4096 + x.b.val * 64 + x.a.val

/-- `VStrm` as its fields read. -/
def VStrm.raw (t : Nat) : VStrm :=
  { fmt := fmtRaw t 26 21, c := Fin.ofNat 64 (t / 4096), b := Fin.ofNat 64 (t / 64), a := Fin.ofNat 64 t }

/-- The tail fields of `VWt`. -/
def VWt.enc (x : VWt) : Nat :=
  x.k.val * 268435456 + x.ge.toNat * 134217728 + x.sc.code * 16777216 + x.c.val * 4096 + x.b.val * 64 + x.a.val

/-- `VWt` as its fields read. -/
def VWt.raw (t : Nat) : VWt :=
  { k := Fin.ofNat 16 (t / 268435456), ge := bitRaw t 27, sc := Scope.raw (t / 16777216), c := Fin.ofNat 64 (t / 4096), b := Fin.ofNat 32 (t / 64), a := Fin.ofNat 32 t }

/-- The tail fields of `MGath`. -/
def MGath.enc (x : MGath) : Nat :=
  fmtEnc x.fmt 26 27 + x.l.toNat * 33554432 + x.t.toNat * 16777216 + x.nm1.toNat * 262144 + x.m.toNat * 131072 + x.b.val * 64 + x.a.val

/-- `MGath` as its fields read. -/
def MGath.raw (t : Nat) : MGath :=
  { fmt := fmtRaw t 26 27, l := bitRaw t 25, t := bitRaw t 24, nm1 := BitVec.ofNat 6 (t / 262144), m := bitRaw t 17, b := Fin.ofNat 32 (t / 64), a := Fin.ofNat 64 t }

/-- The tail fields of `MMove`. -/
def MMove.enc (x : MMove) : Nat :=
  x.k.val * 268435456 + x.z.toNat * 134217728 + x.col.toNat * 4194304 + x.idx.toNat * 32768 + x.t.val * 4096

/-- `MMove` as its fields read. -/
def MMove.raw (t : Nat) : MMove :=
  { k := Fin.ofNat 16 (t / 268435456), z := bitRaw t 27, col := bitRaw t 22, idx := BitVec.ofNat 7 (t / 32768), t := Fin.ofNat 8 (t / 4096) }

/-- The tail fields of `MTile`. -/
def MTile.enc (x : MTile) : Nat :=
  fmtEnc x.fmt 26 27 + x.nm1.toNat * 1048576 + x.c.val * 4096 + x.fr.toNat * 64 + x.a.val

/-- `MTile` as its fields read. -/
def MTile.raw (t : Nat) : MTile :=
  { fmt := fmtRaw t 26 27, nm1 := BitVec.ofNat 6 (t / 1048576), c := Fin.ofNat 64 (t / 4096), fr := BitVec.ofNat 6 (t / 64), a := Fin.ofNat 64 t }

/-- The tail fields of `ForkArgs`. -/
def ForkArgs.enc (x : ForkArgs) : Nat :=
  x.xm.toNat * 32768 + x.xc.toNat * 16384 + x.rm.toNat * 8192 + x.rc.toNat * 4096 + x.b.val * 64 + x.a.val

/-- `ForkArgs` as its fields read. -/
def ForkArgs.raw (t : Nat) : ForkArgs :=
  { xm := bitRaw t 15, xc := bitRaw t 14, rm := bitRaw t 13, rc := bitRaw t 12, b := Fin.ofNat 64 (t / 64), a := Fin.ofNat 64 t }

/-- The tail fields of `CopyXArgs`. -/
def CopyXArgs.enc (x : CopyXArgs) : Nat :=
  x.wm1.toNat * 1048576 + x.dir.toNat * 524288 + x.s.toNat * 262144 + x.b.val * 4096 + x.c.val * 64 + x.a.val

/-- `CopyXArgs` as its fields read. -/
def CopyXArgs.raw (t : Nat) : CopyXArgs :=
  { wm1 := BitVec.ofNat 4 (t / 1048576), dir := bitRaw t 19, s := bitRaw t 18, b := Fin.ofNat 64 (t / 4096), c := Fin.ofNat 64 (t / 64), a := Fin.ofNat 64 t }

/-- The tail fields of `FenceArgs`. -/
def FenceArgs.enc (x : FenceArgs) : Nat :=
  x.sc.code * 16384 + x.win.toNat * 8192 + x.pr.toNat * 512 + x.pw.toNat * 256 + x.sr.toNat * 128 + x.sw.toNat * 64

/-- `FenceArgs` as its fields read. -/
def FenceArgs.raw (t : Nat) : FenceArgs :=
  { sc := Scope.raw (t / 16384), win := bitRaw t 13, pr := bitRaw t 9, pw := bitRaw t 8, sr := bitRaw t 7, sw := bitRaw t 6 }

/-- The tail fields of `SvfArgs`. -/
def SvfArgs.enc (x : SvfArgs) : Nat :=
  x.sc.code * 16384 + x.dir.toNat * 4096 + x.pr.toNat * 2048 + x.pw.toNat * 1024 + x.sr.toNat * 512 + x.sw.toNat * 256

/-- `SvfArgs` as its fields read. -/
def SvfArgs.raw (t : Nat) : SvfArgs :=
  { sc := Scope.raw (t / 16384), dir := BitVec.ofNat 2 (t / 4096), pr := bitRaw t 11, pw := bitRaw t 10, sr := bitRaw t 9, sw := bitRaw t 8 }

/-- The tail fields of `VReq`. -/
def VReq.enc (x : VReq) : Nat :=
  x.fz.toNat * 64 + x.lm.toNat * 8 + x.sew.toNat

/-- `VReq` as its fields read. -/
def VReq.raw (t : Nat) : VReq :=
  { fz := BitVec.ofNat 2 (t / 64), lm := BitVec.ofNat 3 (t / 8), sew := BitVec.ofNat 3 t }

/-- The head and tail of an instruction; an event has none. -/
def encode (i : Instr) : Option Enc :=
  match i with
  | .nop => some { tl := 0, op := 0, d := 0, tail := 0 }
  | .add d a b => some { tl := 1, op := 1, d := d.val, tail := a.val + b.val * 64 }
  | .sub d a b => some { tl := 1, op := 2, d := d.val, tail := a.val + b.val * 64 }
  | .and d a b => some { tl := 1, op := 3, d := d.val, tail := a.val + b.val * 64 }
  | .or d a b => some { tl := 1, op := 4, d := d.val, tail := a.val + b.val * 64 }
  | .xor d a b => some { tl := 1, op := 5, d := d.val, tail := a.val + b.val * 64 }
  | .sll d a b => some { tl := 1, op := 6, d := d.val, tail := a.val + b.val * 64 }
  | .srl d a b => some { tl := 1, op := 7, d := d.val, tail := a.val + b.val * 64 }
  | .sra d a b => some { tl := 1, op := 8, d := d.val, tail := a.val + b.val * 64 }
  | .mul d a b => some { tl := 1, op := 9, d := d.val, tail := a.val + b.val * 64 }
  | .mulh d a b => some { tl := 1, op := 10, d := d.val, tail := a.val + b.val * 64 }
  | .mulhn d a b => some { tl := 1, op := 11, d := d.val, tail := a.val + b.val * 64 }
  | .div d a b => some { tl := 1, op := 12, d := d.val, tail := a.val + b.val * 64 }
  | .divn d a b => some { tl := 1, op := 13, d := d.val, tail := a.val + b.val * 64 }
  | .rem d a b => some { tl := 1, op := 14, d := d.val, tail := a.val + b.val * 64 }
  | .remn d a b => some { tl := 1, op := 15, d := d.val, tail := a.val + b.val * 64 }
  | .min d a b => some { tl := 1, op := 16, d := d.val, tail := a.val + b.val * 64 }
  | .max d a b => some { tl := 1, op := 17, d := d.val, tail := a.val + b.val * 64 }
  | .minn d a b => some { tl := 1, op := 18, d := d.val, tail := a.val + b.val * 64 }
  | .maxn d a b => some { tl := 1, op := 19, d := d.val, tail := a.val + b.val * 64 }
  | .slt d a b => some { tl := 1, op := 20, d := d.val, tail := a.val + b.val * 64 }
  | .sltn d a b => some { tl := 1, op := 21, d := d.val, tail := a.val + b.val * 64 }
  | .sel d a b c => some { tl := 2, op := 22, d := d.val, tail := a.val + b.val * 64 + c.val * 4096 }
  | .clz d a => some { tl := 1, op := 23, d := d.val, tail := a.val }
  | .ctz d a => some { tl := 1, op := 24, d := d.val, tail := a.val }
  | .popc d a => some { tl := 1, op := 25, d := d.val, tail := a.val }
  | .brev d a => some { tl := 1, op := 26, d := d.val, tail := a.val }
  | .bext d pos lenm a => some { tl := 2, op := 27, d := d.val, tail := a.val + lenm.toNat * 4096 + pos.toNat * 4194304 }
  | .bins d pos lenm a => some { tl := 2, op := 28, d := d.val, tail := a.val + lenm.toNat * 4096 + pos.toNat * 4194304 }
  | .addiTl2 d a imm => some { tl := 2, op := 32, d := d.val, tail := a.val + imm.toNat * 4194304 }
  | .addiTl3 d a imm => some { tl := 3, op := 32, d := d.val, tail := a.val + imm.toNat * 65536 }
  | .andiTl2 d a imm => some { tl := 2, op := 33, d := d.val, tail := a.val + imm.toNat * 4194304 }
  | .andiTl3 d a imm => some { tl := 3, op := 33, d := d.val, tail := a.val + imm.toNat * 65536 }
  | .oriTl2 d a imm => some { tl := 2, op := 34, d := d.val, tail := a.val + imm.toNat * 4194304 }
  | .oriTl3 d a imm => some { tl := 3, op := 34, d := d.val, tail := a.val + imm.toNat * 65536 }
  | .xoriTl2 d a imm => some { tl := 2, op := 35, d := d.val, tail := a.val + imm.toNat * 4194304 }
  | .xoriTl3 d a imm => some { tl := 3, op := 35, d := d.val, tail := a.val + imm.toNat * 65536 }
  | .sltiTl2 d a imm => some { tl := 2, op := 36, d := d.val, tail := a.val + imm.toNat * 4194304 }
  | .sltiTl3 d a imm => some { tl := 3, op := 36, d := d.val, tail := a.val + imm.toNat * 65536 }
  | .slli d a n => some { tl := 1, op := 37, d := d.val, tail := a.val + n.toNat * 64 }
  | .srli d a n => some { tl := 1, op := 38, d := d.val, tail := a.val + n.toNat * 64 }
  | .srai d a n => some { tl := 1, op := 39, d := d.val, tail := a.val + n.toNat * 64 }
  | .liTl2 d imm => some { tl := 2, op := 40, d := d.val, tail := imm.toNat * 64 }
  | .liTl3 d imm => some { tl := 3, op := 40, d := d.val, tail := imm.toNat * 65536 }
  | .lih d imm => some { tl := 3, op := 41, d := d.val, tail := imm.toNat * 65536 }
  | .b t => some { tl := 2, op := 48, d := 0, tail := t.toNat * 64 }
  | .bl d t => some { tl := 2, op := 49, d := d.val, tail := t.toNat * 64 }
  | .br d => some { tl := 0, op := 50, d := d.val, tail := 0 }
  | .blr d a => some { tl := 1, op := 51, d := d.val, tail := a.val }
  | .beq d a t => some { tl := 2, op := 52, d := d.val, tail := a.val + t.toNat * 64 }
  | .bne d a t => some { tl := 2, op := 53, d := d.val, tail := a.val + t.toNat * 64 }
  | .blt d a t => some { tl := 2, op := 54, d := d.val, tail := a.val + t.toNat * 64 }
  | .bge d a t => some { tl := 2, op := 55, d := d.val, tail := a.val + t.toNat * 64 }
  | .bltn d a t => some { tl := 2, op := 56, d := d.val, tail := a.val + t.toNat * 64 }
  | .bgen d a t => some { tl := 2, op := 57, d := d.val, tail := a.val + t.toNat * 64 }
  | .ldbTl2 d a off => some { tl := 2, op := 64, d := d.val, tail := a.val + off.toNat * 4194304 }
  | .ldbTl3 d a off => some { tl := 3, op := 64, d := d.val, tail := a.val + off.toNat * 65536 }
  | .ldbzTl2 d a off => some { tl := 2, op := 65, d := d.val, tail := a.val + off.toNat * 4194304 }
  | .ldbzTl3 d a off => some { tl := 3, op := 65, d := d.val, tail := a.val + off.toNat * 65536 }
  | .ldhTl2 d a off => some { tl := 2, op := 66, d := d.val, tail := a.val + off.toNat * 4194304 }
  | .ldhTl3 d a off => some { tl := 3, op := 66, d := d.val, tail := a.val + off.toNat * 65536 }
  | .ldhzTl2 d a off => some { tl := 2, op := 67, d := d.val, tail := a.val + off.toNat * 4194304 }
  | .ldhzTl3 d a off => some { tl := 3, op := 67, d := d.val, tail := a.val + off.toNat * 65536 }
  | .ldwTl2 d a off => some { tl := 2, op := 68, d := d.val, tail := a.val + off.toNat * 4194304 }
  | .ldwTl3 d a off => some { tl := 3, op := 68, d := d.val, tail := a.val + off.toNat * 65536 }
  | .ldwzTl2 d a off => some { tl := 2, op := 69, d := d.val, tail := a.val + off.toNat * 4194304 }
  | .ldwzTl3 d a off => some { tl := 3, op := 69, d := d.val, tail := a.val + off.toNat * 65536 }
  | .lddTl2 d a off => some { tl := 2, op := 70, d := d.val, tail := a.val + off.toNat * 4194304 }
  | .lddTl3 d a off => some { tl := 3, op := 70, d := d.val, tail := a.val + off.toNat * 65536 }
  | .ldqTl2 d a off => some { tl := 2, op := 71, d := d.val, tail := a.val + off.toNat * 4194304 }
  | .ldqTl3 d a off => some { tl := 3, op := 71, d := d.val, tail := a.val + off.toNat * 65536 }
  | .stbTl2 d a off => some { tl := 2, op := 72, d := d.val, tail := a.val + off.toNat * 4194304 }
  | .stbTl3 d a off => some { tl := 3, op := 72, d := d.val, tail := a.val + off.toNat * 65536 }
  | .sthTl2 d a off => some { tl := 2, op := 73, d := d.val, tail := a.val + off.toNat * 4194304 }
  | .sthTl3 d a off => some { tl := 3, op := 73, d := d.val, tail := a.val + off.toNat * 65536 }
  | .stwTl2 d a off => some { tl := 2, op := 74, d := d.val, tail := a.val + off.toNat * 4194304 }
  | .stwTl3 d a off => some { tl := 3, op := 74, d := d.val, tail := a.val + off.toNat * 65536 }
  | .stdTl2 d a off => some { tl := 2, op := 75, d := d.val, tail := a.val + off.toNat * 4194304 }
  | .stdTl3 d a off => some { tl := 3, op := 75, d := d.val, tail := a.val + off.toNat * 65536 }
  | .stqTl2 d a off => some { tl := 2, op := 76, d := d.val, tail := a.val + off.toNat * 4194304 }
  | .stqTl3 d a off => some { tl := 3, op := 76, d := d.val, tail := a.val + off.toNat * 65536 }
  | .prefTl2 h a off => some { tl := 2, op := 77, d := h.toNat, tail := a.val + off.toNat * 4194304 }
  | .prefTl3 h a off => some { tl := 3, op := 77, d := h.toNat, tail := a.val + off.toNat * 65536 }
  | .lda d sc sz a off => some { tl := 2, op := 78, d := d.val, tail := a.val + sz.toNat * 524288 + sc.code * 1048576 + off.toNat * 4194304 }
  | .stl d sc sz a off => some { tl := 2, op := 79, d := d.val, tail := a.val + sz.toNat * 524288 + sc.code * 1048576 + off.toNat * 4194304 }
  | .amoadd d b a sz sc => some { tl := 2, op := 80, d := d.val, tail := a.val + b.val * 64 + sc.code * 4194304 + sz.toNat * 16777216 }
  | .amoand d b a sz sc => some { tl := 2, op := 80, d := d.val, tail := a.val + b.val * 64 + 262144 + sc.code * 4194304 + sz.toNat * 16777216 }
  | .amoor d b a sz sc => some { tl := 2, op := 80, d := d.val, tail := a.val + b.val * 64 + 524288 + sc.code * 4194304 + sz.toNat * 16777216 }
  | .amoxor d b a sz sc => some { tl := 2, op := 80, d := d.val, tail := a.val + b.val * 64 + 786432 + sc.code * 4194304 + sz.toNat * 16777216 }
  | .amomin d b a sz sc => some { tl := 2, op := 80, d := d.val, tail := a.val + b.val * 64 + 1048576 + sc.code * 4194304 + sz.toNat * 16777216 }
  | .amomax d b a sz sc => some { tl := 2, op := 80, d := d.val, tail := a.val + b.val * 64 + 1310720 + sc.code * 4194304 + sz.toNat * 16777216 }
  | .amoswap d b a sz sc => some { tl := 2, op := 80, d := d.val, tail := a.val + b.val * 64 + 1572864 + sc.code * 4194304 + sz.toNat * 16777216 }
  | .amocas d b c a sz sc => some { tl := 2, op := 81, d := d.val, tail := a.val + b.val * 64 + c.val * 4096 + sc.code * 262144 + sz.toNat * 1048576 }
  | .amocasq d b c a sc => some { tl := 2, op := 82, d := d.val, tail := a.val + b.val * 64 + c.val * 4096 + sc.code * 262144 }
  | .crrd d idx => some { tl := 2, op := 83, d := d.val, tail := idx.toNat * 4194304 }
  | .crwr d idx a => some { tl := 2, op := 84, d := d.val, tail := a.val + idx.toNat * 4194304 }
  | .crset d idx a => some { tl := 2, op := 85, d := d.val, tail := a.val + idx.toNat * 4194304 }
  | .crclr d idx a => some { tl := 2, op := 86, d := d.val, tail := a.val + idx.toNat * 4194304 }
  | .ecall => some { tl := 1, op := 87, d := 0, tail := 0 }
  | .ebrk => some { tl := 1, op := 87, d := 0, tail := 4096 }
  | .tret => some { tl := 1, op := 87, d := 0, tail := 8192 }
  | .yield => some { tl := 1, op := 87, d := 0, tail := 12288 }
  | .wfi => some { tl := 1, op := 87, d := 0, tail := 16384 }
  | .drainst => some { tl := 1, op := 87, d := 0, tail := 20480 }
  | .ifence => some { tl := 1, op := 87, d := 0, tail := 24576 }
  | .xinvPage psz a => some { tl := 2, op := 88, d := 0, tail := a.val + psz.toNat * 65536 }
  | .xinvCtx => some { tl := 2, op := 88, d := 0, tail := 1048576 }
  | .xinvRdt => some { tl := 2, op := 88, d := 0, tail := 2097152 }
  | .xinvAll => some { tl := 2, op := 88, d := 0, tail := 3145728 }
  | .sptsw d a => some { tl := 1, op := 89, d := d.val, tail := a.val }
  | .tkill a => some { tl := 1, op := 90, d := 0, tail := a.val }
  | .fence x => some { tl := 1, op := 224, d := 0, tail := x.enc }
  | .svf x => some { tl := 1, op := 225, d := 0, tail := x.enc }
  | .setvl d q a => some { tl := 2, op := 96, d := d.val, tail := a.val + q.enc * 64 }
  | .setvli d q avl => some { tl := 2, op := 97, d := d.val, tail := q.enc * 64 + avl.toNat * 16384 }
  | .vadd d x => some { tl := 2, op := 98, d := d.val, tail := x.enc }
  | .vsub d x => some { tl := 2, op := 99, d := d.val, tail := x.enc }
  | .vmul d x => some { tl := 2, op := 100, d := d.val, tail := x.enc }
  | .vmulh d x => some { tl := 2, op := 101, d := d.val, tail := x.enc }
  | .vmin d x => some { tl := 2, op := 102, d := d.val, tail := x.enc }
  | .vmax d x => some { tl := 2, op := 103, d := d.val, tail := x.enc }
  | .vminn d x => some { tl := 2, op := 104, d := d.val, tail := x.enc }
  | .vmaxn d x => some { tl := 2, op := 105, d := d.val, tail := x.enc }
  | .vand d x => some { tl := 2, op := 106, d := d.val, tail := x.enc }
  | .vor d x => some { tl := 2, op := 107, d := d.val, tail := x.enc }
  | .vxor d x => some { tl := 2, op := 108, d := d.val, tail := x.enc }
  | .vsll d x => some { tl := 2, op := 109, d := d.val, tail := x.enc }
  | .vsrl d x => some { tl := 2, op := 110, d := d.val, tail := x.enc }
  | .vsra d x => some { tl := 2, op := 111, d := d.val, tail := x.enc }
  | .vsadd d x => some { tl := 2, op := 112, d := d.val, tail := x.enc }
  | .vssub d x => some { tl := 2, op := 113, d := d.val, tail := x.enc }
  | .vwmul d x => some { tl := 2, op := 114, d := d.val, tail := x.enc }
  | .vwmacc d x => some { tl := 2, op := 115, d := d.val, tail := x.enc }
  | .vwmaccsn d x => some { tl := 2, op := 116, d := d.val, tail := x.enc }
  | .vnsra d x => some { tl := 2, op := 117, d := d.val, tail := x.enc }
  | .vmseq d x => some { tl := 2, op := 118, d := d.val, tail := x.enc }
  | .vmslt d x => some { tl := 2, op := 119, d := d.val, tail := x.enc }
  | .vmsltn d x => some { tl := 2, op := 120, d := d.val, tail := x.enc }
  | .vfadd d x => some { tl := 2, op := 128, d := d.val, tail := x.enc }
  | .vfsub d x => some { tl := 2, op := 129, d := d.val, tail := x.enc }
  | .vfmul d x => some { tl := 2, op := 130, d := d.val, tail := x.enc }
  | .vfma d x => some { tl := 2, op := 131, d := d.val, tail := x.enc }
  | .vfnma d x => some { tl := 2, op := 132, d := d.val, tail := x.enc }
  | .vfmin d x => some { tl := 2, op := 133, d := d.val, tail := x.enc }
  | .vfmax d x => some { tl := 2, op := 134, d := d.val, tail := x.enc }
  | .vfdiv d x => some { tl := 2, op := 135, d := d.val, tail := x.enc }
  | .vfsqrt d x => some { tl := 2, op := 136, d := d.val, tail := x.enc }
  | .vfexp2 d x => some { tl := 2, op := 137, d := d.val, tail := x.enc }
  | .vfrcp d x => some { tl := 2, op := 138, d := d.val, tail := x.enc }
  | .vmfeq d x => some { tl := 2, op := 139, d := d.val, tail := x.enc }
  | .vmflt d x => some { tl := 2, op := 140, d := d.val, tail := x.enc }
  | .vmfle d x => some { tl := 2, op := 141, d := d.val, tail := x.enc }
  | .vfcvt d x => some { tl := 2, op := 142, d := d.val, tail := x.enc }
  | .vredsum d x => some { tl := 2, op := 144, d := d.val, tail := x.enc }
  | .vredosum d x => some { tl := 2, op := 145, d := d.val, tail := x.enc }
  | .vredmax d x => some { tl := 2, op := 146, d := d.val, tail := x.enc }
  | .vredmin d x => some { tl := 2, op := 147, d := d.val, tail := x.enc }
  | .vfredsum d x => some { tl := 2, op := 148, d := d.val, tail := x.enc }
  | .vfredosum d x => some { tl := 2, op := 149, d := d.val, tail := x.enc }
  | .vfredmax d x => some { tl := 2, op := 150, d := d.val, tail := x.enc }
  | .vslideup d x => some { tl := 2, op := 152, d := d.val, tail := x.enc }
  | .vslidedn d x => some { tl := 2, op := 153, d := d.val, tail := x.enc }
  | .vperm d x => some { tl := 2, op := 154, d := d.val, tail := x.enc }
  | .vcompress d x => some { tl := 2, op := 155, d := d.val, tail := x.enc }
  | .vexpand d x => some { tl := 2, op := 156, d := d.val, tail := x.enc }
  | .vbcast d x => some { tl := 2, op := 157, d := d.val, tail := x.enc }
  | .vext d x => some { tl := 2, op := 158, d := d.val, tail := x.enc }
  | .vprefix d x => some { tl := 2, op := 159, d := d.val, tail := x.enc }
  | .kand d a b => some { tl := 1, op := 160, d := d.val, tail := a.val + b.val * 64 }
  | .kor d a b => some { tl := 1, op := 161, d := d.val, tail := a.val + b.val * 64 }
  | .kxor d a b => some { tl := 1, op := 162, d := d.val, tail := a.val + b.val * 64 }
  | .knot d a => some { tl := 1, op := 163, d := d.val, tail := a.val }
  | .kpopc d a => some { tl := 1, op := 164, d := d.val, tail := a.val }
  | .kfirst d a => some { tl := 1, op := 165, d := d.val, tail := a.val }
  | .kset d a => some { tl := 1, op := 166, d := d.val, tail := a.val }
  | .vldTl2 d x => some { tl := 2, op := 168, d := d.val, tail := x.enc }
  | .vldTl3 d x off => some { tl := 3, op := 168, d := d.val, tail := x.enc + off.toNat * 4294967296 }
  | .vstTl2 d x => some { tl := 2, op := 169, d := d.val, tail := x.enc }
  | .vstTl3 d x off => some { tl := 3, op := 169, d := d.val, tail := x.enc + off.toNat * 4294967296 }
  | .vldsTl2 d x => some { tl := 2, op := 170, d := d.val, tail := x.enc }
  | .vldsTl3 d x off => some { tl := 3, op := 170, d := d.val, tail := x.enc + off.toNat * 4294967296 }
  | .vstsTl2 d x => some { tl := 2, op := 171, d := d.val, tail := x.enc }
  | .vstsTl3 d x off => some { tl := 3, op := 171, d := d.val, tail := x.enc + off.toNat * 4294967296 }
  | .vlsegTl2 d x => some { tl := 2, op := 172, d := d.val, tail := x.enc }
  | .vlsegTl3 d x off => some { tl := 3, op := 172, d := d.val, tail := x.enc + off.toNat * 4294967296 }
  | .vssegTl2 d x => some { tl := 2, op := 173, d := d.val, tail := x.enc }
  | .vssegTl3 d x off => some { tl := 3, op := 173, d := d.val, tail := x.enc + off.toNat * 4294967296 }
  | .vgatherTl2 d x => some { tl := 2, op := 174, d := d.val, tail := x.enc }
  | .vgatherTl3 d x off => some { tl := 3, op := 174, d := d.val, tail := x.enc + off.toNat * 4294967296 }
  | .vscatterTl2 d x => some { tl := 2, op := 175, d := d.val, tail := x.enc }
  | .vscatterTl3 d x off => some { tl := 3, op := 175, d := d.val, tail := x.enc + off.toNat * 4294967296 }
  | .vgatherpTl2 d x => some { tl := 2, op := 176, d := d.val, tail := x.enc }
  | .vgatherpTl3 d x off => some { tl := 3, op := 176, d := d.val, tail := x.enc + off.toNat * 4294967296 }
  | .vscatterpTl2 d x => some { tl := 2, op := 177, d := d.val, tail := x.enc }
  | .vscatterpTl3 d x off => some { tl := 3, op := 177, d := d.val, tail := x.enc + off.toNat * 4294967296 }
  | .vstqTl2 d x => some { tl := 2, op := 178, d := d.val, tail := x.enc }
  | .vstqTl3 d x off => some { tl := 3, op := 178, d := d.val, tail := x.enc + off.toNat * 4294967296 }
  | .vldqTl2 d x => some { tl := 2, op := 179, d := d.val, tail := x.enc }
  | .vldqTl3 d x off => some { tl := 3, op := 179, d := d.val, tail := x.enc + off.toNat * 4294967296 }
  | .vstream d x => some { tl := 2, op := 180, d := d.val, tail := x.enc }
  | .vunbind d => some { tl := 0, op := 181, d := d.val, tail := 0 }
  | .vwait d x => some { tl := 2, op := 182, d := d.val, tail := x.enc }
  | .mzero d => some { tl := 0, op := 192, d := d.val, tail := 0 }
  | .mopa d a b => some { tl := 1, op := 193, d := d.val, tail := a.val + b.val * 64 }
  | .mops d a b => some { tl := 1, op := 194, d := d.val, tail := a.val + b.val * 64 }
  | .mopal d km1 => some { tl := 1, op := 196, d := d.val, tail := km1.toNat }
  | .mopax d k => some { tl := 1, op := 197, d := d.val, tail := k.val }
  | .mgath d x => some { tl := 2, op := 195, d := d.toNat, tail := x.enc }
  | .mrd d x => some { tl := 2, op := 198, d := d.val, tail := x.enc }
  | .mwr d x => some { tl := 2, op := 199, d := d.val, tail := x.enc }
  | .mldTl2 d x => some { tl := 2, op := 200, d := d.val, tail := x.enc }
  | .mldTl3 d x off => some { tl := 3, op := 200, d := d.val, tail := x.enc + off.toNat * 4294967296 }
  | .mstTl2 d x => some { tl := 2, op := 201, d := d.val, tail := x.enc }
  | .mstTl3 d x off => some { tl := 3, op := 201, d := d.val, tail := x.enc + off.toNat * 4294967296 }
  | .fork x => some { tl := 1, op := 208, d := 0, tail := x.enc }
  | .rdv => some { tl := 0, op := 209, d := 0, tail := 0 }
  | .copy b a => some { tl := 2, op := 210, d := 0, tail := a.val + b.val * 4096 }
  | .copyx x => some { tl := 2, op := 211, d := 0, tail := x.enc }
  | .tbinit a b => some { tl := 2, op := 212, d := 0, tail := a.val + b.val * 64 }
  | .tbarrive a => some { tl := 2, op := 213, d := 0, tail := a.val }
  | .tbexpect a b arv => some { tl := 2, op := 214, d := 0, tail := a.val + b.val * 64 + arv.toNat * 4096 }
  | .tbwait a b => some { tl := 2, op := 215, d := 0, tail := a.val + b.val * 64 }
  | .tlwait d t b => some { tl := 2, op := 216, d := d.val, tail := b.val * 64 + t.toNat * 4096 }
  | .tlread d sel t => some { tl := 1, op := 217, d := d.val, tail := t.toNat + sel.toNat * 4 }
  | .cbar => some { tl := 0, op := 218, d := 0, tail := 0 }
  | .bbar => some { tl := 0, op := 219, d := 0, tail := 0 }
  | .glaunch d q a => some { tl := 1, op := 220, d := d.val, tail := a.val + q.toNat * 4096 }
  | .nend => some { tl := 0, op := 221, d := 0, tail := 0 }
  | .ljoin d off add a => some { tl := 2, op := 226, d := d.val, tail := a.val + add.toNat * 2097152 + off.toNat * 4194304 }
  | .lldt d off b a => some { tl := 2, op := 227, d := d.val, tail := a.val + b.val * 64 + off.toNat * 4194304 }
  | .lflush => some { tl := 0, op := 228, d := 0, tail := 0 }
  | .colst d off b a => some { tl := 2, op := 229, d := d.val, tail := a.val + b.val * 64 + off.toNat * 4194304 }
  | .colwait d => some { tl := 1, op := 230, d := d.val, tail := 0 }
  | .colwaitLayers d a => some { tl := 1, op := 230, d := d.val, tail := a.val + 16384 }
  | .colwaitSeq d a => some { tl := 1, op := 230, d := d.val, tail := a.val + 32768 }
  | .discard a b => some { tl := 1, op := 231, d := 0, tail := a.val + b.val * 64 }
  | .migr a b => some { tl := 1, op := 232, d := 0, tail := a.val + b.val * 64 }
  | .vlaunch d a => some { tl := 1, op := 240, d := d.val, tail := a.val }
  | .vlaunchClear d => some { tl := 1, op := 240, d := d.val, tail := 64 }
  | .vrlock d a => some { tl := 1, op := 241, d := d.val, tail := a.val }
  | .vrunlock dv a => some { tl := 1, op := 242, d := 0, tail := a.val + dv.toNat * 64 }
  | .vzero d dv a b => some { tl := 2, op := 243, d := d.val, tail := a.val + b.val * 64 + dv.toNat * 4194304 }
  | .vclone d dv a b c => some { tl := 2, op := 244, d := d.val, tail := a.val + b.val * 64 + c.val * 4096 + dv.toNat * 4194304 }
  | .vquery d sel a => some { tl := 1, op := 245, d := d.val, tail := a.val + sel.toNat * 4096 }
  | .evRegisterWrite _ _ => none
  | .evSfrqhWrite _ _ => none
  | .evXschedWrite _ => none
  | .evColallocWrite _ _ => none
  | .evRouteTableWrite _ _ _ => none
  | .evMeshPacketArrive _ => none
  | .evBackpressureSignal _ _ _ => none
  | .evFabricRequestReceive _ => none
  | .evStoreFaultPost _ => none
  | .evImpreciseDelivery _ => none
  | .evInterrupt _ => none
  | .evRingRecordRead _ _ => none
  | .evDispatch _ => none
  | .evNodeAgingStep _ => none
  | .evLaneReclaimDeadline _ => none
  | .evDrainDeadline _ _ => none
  | .evQuiesceMarkerReturn _ _ => none
  | .evSlotSaveComplete _ => none
  | .evSlotRestoreComplete _ => none
  | .evGraphCompletion _ => none
  | .evFatalRemoval _ => none
  | .evHangWatchdog _ => none
  | .evPowerControllerSample _ => none
  | .evPowerReductionDeadline _ => none
  | .evCopyGranule _ => none
  | .evCopyxTile _ => none
  | .evStreamRefill _ _ => none
  | .evVeldOperationStart _ => none
  | .evVeldBroadcast _ => none
  | .evVeldStep _ _ => none
  | .evBankRefresh _ _ _ => none
  | .evGapAccess _ _ _ => none
  | .evVeldOperationComplete _ => none
  | .evLockTimeOut _ => none
  | .evVrlockTimeOut _ _ => none
  | .evExchangeRound => none
  | .evExchangeLineReceive _ _ => none
  | .evColEntryBroadcast _ => none
  | .evColReplay _ => none
  | .evColResync _ _ => none
  | .evColFrameBoundary _ => none
  | .evLayerPowered _ _ => none
  | .evVwaitTimeOut _ => none
  | .evLldtTimeOut _ => none
  | .evColwaitTimeOut _ => none
  | .evRequestResend _ => none
  | .evMeshLinkDown _ => none
  | .evCxlLinkDown _ => none
  | .evLinkDownPhaseEnd _ _ => none
  | .evCxlLinkTrained _ _ _ => none
  | .evPctlEnWrite _ _ => none
  | .evCxlMemRead _ => none
  | .evCxlMemWrite _ _ => none
  | .evCxlCacheSnoop _ _ => none
  | .evUnsupportedRequest _ => none
  | .evOutboundWindowWrite _ _ _ => none
  | .evQtailWrite _ _ _ => none
  | .evQueueDisable _ _ => none
  | .evQueueEnable _ _ => none
  | .evMbInstallContext _ => none
  | .evMbRemoveContext _ => none
  | .evMbLoadKey _ _ => none
  | .evMbArbitration _ _ => none
  | .evMbDebugHalt _ => none
  | .evMbDebugRelease _ => none
  | .evMbLifeCycleChange _ => none
  | .evMbHealthRecord _ => none
  | .evPclampWrite _ _ => none
  | .evReset => none
  | .evBootImageVerify _ => none
  | .evWipeComplete => none
  | .evFabricResponseReceive _ => none
  | .evBaseDieRowBufferTransfer _ => none
  | .evDebuggerArm _ _ => none

/-- The instruction that the fields of a head and tail with opcodes 0x0 to 0x2f read as. -/
def rawDecodeA (e : Enc) : Option Instr :=
  match e.op with
  | 0 => some (.nop)
  | 1 => some (.add (Fin.ofNat 64 e.d) (Fin.ofNat 64 e.tail) (Fin.ofNat 64 (e.tail / 64)))
  | 2 => some (.sub (Fin.ofNat 64 e.d) (Fin.ofNat 64 e.tail) (Fin.ofNat 64 (e.tail / 64)))
  | 3 => some (.and (Fin.ofNat 64 e.d) (Fin.ofNat 64 e.tail) (Fin.ofNat 64 (e.tail / 64)))
  | 4 => some (.or (Fin.ofNat 64 e.d) (Fin.ofNat 64 e.tail) (Fin.ofNat 64 (e.tail / 64)))
  | 5 => some (.xor (Fin.ofNat 64 e.d) (Fin.ofNat 64 e.tail) (Fin.ofNat 64 (e.tail / 64)))
  | 6 => some (.sll (Fin.ofNat 64 e.d) (Fin.ofNat 64 e.tail) (Fin.ofNat 64 (e.tail / 64)))
  | 7 => some (.srl (Fin.ofNat 64 e.d) (Fin.ofNat 64 e.tail) (Fin.ofNat 64 (e.tail / 64)))
  | 8 => some (.sra (Fin.ofNat 64 e.d) (Fin.ofNat 64 e.tail) (Fin.ofNat 64 (e.tail / 64)))
  | 9 => some (.mul (Fin.ofNat 64 e.d) (Fin.ofNat 64 e.tail) (Fin.ofNat 64 (e.tail / 64)))
  | 10 => some (.mulh (Fin.ofNat 64 e.d) (Fin.ofNat 64 e.tail) (Fin.ofNat 64 (e.tail / 64)))
  | 11 => some (.mulhn (Fin.ofNat 64 e.d) (Fin.ofNat 64 e.tail) (Fin.ofNat 64 (e.tail / 64)))
  | 12 => some (.div (Fin.ofNat 64 e.d) (Fin.ofNat 64 e.tail) (Fin.ofNat 64 (e.tail / 64)))
  | 13 => some (.divn (Fin.ofNat 64 e.d) (Fin.ofNat 64 e.tail) (Fin.ofNat 64 (e.tail / 64)))
  | 14 => some (.rem (Fin.ofNat 64 e.d) (Fin.ofNat 64 e.tail) (Fin.ofNat 64 (e.tail / 64)))
  | 15 => some (.remn (Fin.ofNat 64 e.d) (Fin.ofNat 64 e.tail) (Fin.ofNat 64 (e.tail / 64)))
  | 16 => some (.min (Fin.ofNat 64 e.d) (Fin.ofNat 64 e.tail) (Fin.ofNat 64 (e.tail / 64)))
  | 17 => some (.max (Fin.ofNat 64 e.d) (Fin.ofNat 64 e.tail) (Fin.ofNat 64 (e.tail / 64)))
  | 18 => some (.minn (Fin.ofNat 64 e.d) (Fin.ofNat 64 e.tail) (Fin.ofNat 64 (e.tail / 64)))
  | 19 => some (.maxn (Fin.ofNat 64 e.d) (Fin.ofNat 64 e.tail) (Fin.ofNat 64 (e.tail / 64)))
  | 20 => some (.slt (Fin.ofNat 64 e.d) (Fin.ofNat 64 e.tail) (Fin.ofNat 64 (e.tail / 64)))
  | 21 => some (.sltn (Fin.ofNat 64 e.d) (Fin.ofNat 64 e.tail) (Fin.ofNat 64 (e.tail / 64)))
  | 22 => some (.sel (Fin.ofNat 64 e.d) (Fin.ofNat 64 e.tail) (Fin.ofNat 64 (e.tail / 64)) (Fin.ofNat 64 (e.tail / 4096)))
  | 23 => some (.clz (Fin.ofNat 64 e.d) (Fin.ofNat 64 e.tail))
  | 24 => some (.ctz (Fin.ofNat 64 e.d) (Fin.ofNat 64 e.tail))
  | 25 => some (.popc (Fin.ofNat 64 e.d) (Fin.ofNat 64 e.tail))
  | 26 => some (.brev (Fin.ofNat 64 e.d) (Fin.ofNat 64 e.tail))
  | 27 => some (.bext (Fin.ofNat 64 e.d) (BitVec.ofNat 6 (e.tail / 4194304)) (BitVec.ofNat 6 (e.tail / 4096)) (Fin.ofNat 64 e.tail))
  | 28 => some (.bins (Fin.ofNat 64 e.d) (BitVec.ofNat 6 (e.tail / 4194304)) (BitVec.ofNat 6 (e.tail / 4096)) (Fin.ofNat 64 e.tail))
  | 32 => if e.tl = 2 then some (.addiTl2 (Fin.ofNat 64 e.d) (Fin.ofNat 64 e.tail) (BitVec.ofNat 10 (e.tail / 4194304)))
    else some (.addiTl3 (Fin.ofNat 64 e.d) (Fin.ofNat 64 e.tail) (BitVec.ofNat 32 (e.tail / 65536)))
  | 33 => if e.tl = 2 then some (.andiTl2 (Fin.ofNat 64 e.d) (Fin.ofNat 64 e.tail) (BitVec.ofNat 10 (e.tail / 4194304)))
    else some (.andiTl3 (Fin.ofNat 64 e.d) (Fin.ofNat 64 e.tail) (BitVec.ofNat 32 (e.tail / 65536)))
  | 34 => if e.tl = 2 then some (.oriTl2 (Fin.ofNat 64 e.d) (Fin.ofNat 64 e.tail) (BitVec.ofNat 10 (e.tail / 4194304)))
    else some (.oriTl3 (Fin.ofNat 64 e.d) (Fin.ofNat 64 e.tail) (BitVec.ofNat 32 (e.tail / 65536)))
  | 35 => if e.tl = 2 then some (.xoriTl2 (Fin.ofNat 64 e.d) (Fin.ofNat 64 e.tail) (BitVec.ofNat 10 (e.tail / 4194304)))
    else some (.xoriTl3 (Fin.ofNat 64 e.d) (Fin.ofNat 64 e.tail) (BitVec.ofNat 32 (e.tail / 65536)))
  | 36 => if e.tl = 2 then some (.sltiTl2 (Fin.ofNat 64 e.d) (Fin.ofNat 64 e.tail) (BitVec.ofNat 10 (e.tail / 4194304)))
    else some (.sltiTl3 (Fin.ofNat 64 e.d) (Fin.ofNat 64 e.tail) (BitVec.ofNat 32 (e.tail / 65536)))
  | 37 => some (.slli (Fin.ofNat 64 e.d) (Fin.ofNat 64 e.tail) (BitVec.ofNat 6 (e.tail / 64)))
  | 38 => some (.srli (Fin.ofNat 64 e.d) (Fin.ofNat 64 e.tail) (BitVec.ofNat 6 (e.tail / 64)))
  | 39 => some (.srai (Fin.ofNat 64 e.d) (Fin.ofNat 64 e.tail) (BitVec.ofNat 6 (e.tail / 64)))
  | 40 => if e.tl = 2 then some (.liTl2 (Fin.ofNat 64 e.d) (BitVec.ofNat 26 (e.tail / 64)))
    else some (.liTl3 (Fin.ofNat 64 e.d) (BitVec.ofNat 32 (e.tail / 65536)))
  | 41 => some (.lih (Fin.ofNat 64 e.d) (BitVec.ofNat 32 (e.tail / 65536)))
  | _ => none

/-- The instruction that the fields of a head and tail with opcodes 0x30 to 0x5f read as. -/
def rawDecodeB (e : Enc) : Option Instr :=
  match e.op with
  | 48 => some (.b (BitVec.ofNat 26 (e.tail / 64)))
  | 49 => some (.bl (Fin.ofNat 64 e.d) (BitVec.ofNat 26 (e.tail / 64)))
  | 50 => some (.br (Fin.ofNat 64 e.d))
  | 51 => some (.blr (Fin.ofNat 64 e.d) (Fin.ofNat 64 e.tail))
  | 52 => some (.beq (Fin.ofNat 64 e.d) (Fin.ofNat 64 e.tail) (BitVec.ofNat 26 (e.tail / 64)))
  | 53 => some (.bne (Fin.ofNat 64 e.d) (Fin.ofNat 64 e.tail) (BitVec.ofNat 26 (e.tail / 64)))
  | 54 => some (.blt (Fin.ofNat 64 e.d) (Fin.ofNat 64 e.tail) (BitVec.ofNat 26 (e.tail / 64)))
  | 55 => some (.bge (Fin.ofNat 64 e.d) (Fin.ofNat 64 e.tail) (BitVec.ofNat 26 (e.tail / 64)))
  | 56 => some (.bltn (Fin.ofNat 64 e.d) (Fin.ofNat 64 e.tail) (BitVec.ofNat 26 (e.tail / 64)))
  | 57 => some (.bgen (Fin.ofNat 64 e.d) (Fin.ofNat 64 e.tail) (BitVec.ofNat 26 (e.tail / 64)))
  | 64 => if e.tl = 2 then some (.ldbTl2 (Fin.ofNat 64 e.d) (Fin.ofNat 64 e.tail) (BitVec.ofNat 10 (e.tail / 4194304)))
    else some (.ldbTl3 (Fin.ofNat 64 e.d) (Fin.ofNat 64 e.tail) (BitVec.ofNat 32 (e.tail / 65536)))
  | 65 => if e.tl = 2 then some (.ldbzTl2 (Fin.ofNat 64 e.d) (Fin.ofNat 64 e.tail) (BitVec.ofNat 10 (e.tail / 4194304)))
    else some (.ldbzTl3 (Fin.ofNat 64 e.d) (Fin.ofNat 64 e.tail) (BitVec.ofNat 32 (e.tail / 65536)))
  | 66 => if e.tl = 2 then some (.ldhTl2 (Fin.ofNat 64 e.d) (Fin.ofNat 64 e.tail) (BitVec.ofNat 10 (e.tail / 4194304)))
    else some (.ldhTl3 (Fin.ofNat 64 e.d) (Fin.ofNat 64 e.tail) (BitVec.ofNat 32 (e.tail / 65536)))
  | 67 => if e.tl = 2 then some (.ldhzTl2 (Fin.ofNat 64 e.d) (Fin.ofNat 64 e.tail) (BitVec.ofNat 10 (e.tail / 4194304)))
    else some (.ldhzTl3 (Fin.ofNat 64 e.d) (Fin.ofNat 64 e.tail) (BitVec.ofNat 32 (e.tail / 65536)))
  | 68 => if e.tl = 2 then some (.ldwTl2 (Fin.ofNat 64 e.d) (Fin.ofNat 64 e.tail) (BitVec.ofNat 10 (e.tail / 4194304)))
    else some (.ldwTl3 (Fin.ofNat 64 e.d) (Fin.ofNat 64 e.tail) (BitVec.ofNat 32 (e.tail / 65536)))
  | 69 => if e.tl = 2 then some (.ldwzTl2 (Fin.ofNat 64 e.d) (Fin.ofNat 64 e.tail) (BitVec.ofNat 10 (e.tail / 4194304)))
    else some (.ldwzTl3 (Fin.ofNat 64 e.d) (Fin.ofNat 64 e.tail) (BitVec.ofNat 32 (e.tail / 65536)))
  | 70 => if e.tl = 2 then some (.lddTl2 (Fin.ofNat 64 e.d) (Fin.ofNat 64 e.tail) (BitVec.ofNat 10 (e.tail / 4194304)))
    else some (.lddTl3 (Fin.ofNat 64 e.d) (Fin.ofNat 64 e.tail) (BitVec.ofNat 32 (e.tail / 65536)))
  | 71 => if e.tl = 2 then some (.ldqTl2 (Fin.ofNat 64 e.d) (Fin.ofNat 64 e.tail) (BitVec.ofNat 10 (e.tail / 4194304)))
    else some (.ldqTl3 (Fin.ofNat 64 e.d) (Fin.ofNat 64 e.tail) (BitVec.ofNat 32 (e.tail / 65536)))
  | 72 => if e.tl = 2 then some (.stbTl2 (Fin.ofNat 64 e.d) (Fin.ofNat 64 e.tail) (BitVec.ofNat 10 (e.tail / 4194304)))
    else some (.stbTl3 (Fin.ofNat 64 e.d) (Fin.ofNat 64 e.tail) (BitVec.ofNat 32 (e.tail / 65536)))
  | 73 => if e.tl = 2 then some (.sthTl2 (Fin.ofNat 64 e.d) (Fin.ofNat 64 e.tail) (BitVec.ofNat 10 (e.tail / 4194304)))
    else some (.sthTl3 (Fin.ofNat 64 e.d) (Fin.ofNat 64 e.tail) (BitVec.ofNat 32 (e.tail / 65536)))
  | 74 => if e.tl = 2 then some (.stwTl2 (Fin.ofNat 64 e.d) (Fin.ofNat 64 e.tail) (BitVec.ofNat 10 (e.tail / 4194304)))
    else some (.stwTl3 (Fin.ofNat 64 e.d) (Fin.ofNat 64 e.tail) (BitVec.ofNat 32 (e.tail / 65536)))
  | 75 => if e.tl = 2 then some (.stdTl2 (Fin.ofNat 64 e.d) (Fin.ofNat 64 e.tail) (BitVec.ofNat 10 (e.tail / 4194304)))
    else some (.stdTl3 (Fin.ofNat 64 e.d) (Fin.ofNat 64 e.tail) (BitVec.ofNat 32 (e.tail / 65536)))
  | 76 => if e.tl = 2 then some (.stqTl2 (Fin.ofNat 64 e.d) (Fin.ofNat 64 e.tail) (BitVec.ofNat 10 (e.tail / 4194304)))
    else some (.stqTl3 (Fin.ofNat 64 e.d) (Fin.ofNat 64 e.tail) (BitVec.ofNat 32 (e.tail / 65536)))
  | 77 => if e.tl = 2 then some (.prefTl2 (BitVec.ofNat 6 e.d) (Fin.ofNat 64 e.tail) (BitVec.ofNat 10 (e.tail / 4194304)))
    else some (.prefTl3 (BitVec.ofNat 6 e.d) (Fin.ofNat 64 e.tail) (BitVec.ofNat 32 (e.tail / 65536)))
  | 78 => some (.lda (Fin.ofNat 64 e.d) (Scope.raw (e.tail / 1048576)) (bitRaw e.tail 19) (Fin.ofNat 64 e.tail) (BitVec.ofNat 10 (e.tail / 4194304)))
  | 79 => some (.stl (Fin.ofNat 64 e.d) (Scope.raw (e.tail / 1048576)) (bitRaw e.tail 19) (Fin.ofNat 64 e.tail) (BitVec.ofNat 10 (e.tail / 4194304)))
  | 80 => match e.tail / 262144 % 16 with
    | 0 => some (.amoadd (Fin.ofNat 64 e.d) (Fin.ofNat 64 (e.tail / 64)) (Fin.ofNat 64 e.tail) (bitRaw e.tail 24) (Scope.raw (e.tail / 4194304)))
    | 1 => some (.amoand (Fin.ofNat 64 e.d) (Fin.ofNat 64 (e.tail / 64)) (Fin.ofNat 64 e.tail) (bitRaw e.tail 24) (Scope.raw (e.tail / 4194304)))
    | 2 => some (.amoor (Fin.ofNat 64 e.d) (Fin.ofNat 64 (e.tail / 64)) (Fin.ofNat 64 e.tail) (bitRaw e.tail 24) (Scope.raw (e.tail / 4194304)))
    | 3 => some (.amoxor (Fin.ofNat 64 e.d) (Fin.ofNat 64 (e.tail / 64)) (Fin.ofNat 64 e.tail) (bitRaw e.tail 24) (Scope.raw (e.tail / 4194304)))
    | 4 => some (.amomin (Fin.ofNat 64 e.d) (Fin.ofNat 64 (e.tail / 64)) (Fin.ofNat 64 e.tail) (bitRaw e.tail 24) (Scope.raw (e.tail / 4194304)))
    | 5 => some (.amomax (Fin.ofNat 64 e.d) (Fin.ofNat 64 (e.tail / 64)) (Fin.ofNat 64 e.tail) (bitRaw e.tail 24) (Scope.raw (e.tail / 4194304)))
    | 6 => some (.amoswap (Fin.ofNat 64 e.d) (Fin.ofNat 64 (e.tail / 64)) (Fin.ofNat 64 e.tail) (bitRaw e.tail 24) (Scope.raw (e.tail / 4194304)))
    | _ => none
  | 81 => some (.amocas (Fin.ofNat 64 e.d) (Fin.ofNat 64 (e.tail / 64)) (Fin.ofNat 64 (e.tail / 4096)) (Fin.ofNat 64 e.tail) (bitRaw e.tail 20) (Scope.raw (e.tail / 262144)))
  | 82 => some (.amocasq (Fin.ofNat 64 e.d) (Fin.ofNat 64 (e.tail / 64)) (Fin.ofNat 64 (e.tail / 4096)) (Fin.ofNat 64 e.tail) (Scope.raw (e.tail / 262144)))
  | 83 => some (.crrd (Fin.ofNat 64 e.d) (BitVec.ofNat 10 (e.tail / 4194304)))
  | 84 => some (.crwr (Fin.ofNat 64 e.d) (BitVec.ofNat 10 (e.tail / 4194304)) (Fin.ofNat 64 e.tail))
  | 85 => some (.crset (Fin.ofNat 64 e.d) (BitVec.ofNat 10 (e.tail / 4194304)) (Fin.ofNat 64 e.tail))
  | 86 => some (.crclr (Fin.ofNat 64 e.d) (BitVec.ofNat 10 (e.tail / 4194304)) (Fin.ofNat 64 e.tail))
  | 87 => match e.tail / 4096 % 16 with
    | 0 => some (.ecall)
    | 1 => some (.ebrk)
    | 2 => some (.tret)
    | 3 => some (.yield)
    | 4 => some (.wfi)
    | 5 => some (.drainst)
    | 6 => some (.ifence)
    | _ => none
  | 88 => match e.tail / 1048576 % 4 with
    | 0 => some (.xinvPage (BitVec.ofNat 4 (e.tail / 65536)) (Fin.ofNat 64 e.tail))
    | 1 => some (.xinvCtx)
    | 2 => some (.xinvRdt)
    | 3 => some (.xinvAll)
    | _ => none
  | 89 => some (.sptsw (Fin.ofNat 64 e.d) (Fin.ofNat 64 e.tail))
  | 90 => some (.tkill (Fin.ofNat 64 e.tail))
  | _ => none

/-- The instruction that the fields of a head and tail with opcodes 0x60 to 0x7f read as. -/
def rawDecodeC (e : Enc) : Option Instr :=
  match e.op with
  | 96 => some (.setvl (Fin.ofNat 64 e.d) (VReq.raw (e.tail / 64)) (Fin.ofNat 64 e.tail))
  | 97 => some (.setvli (Fin.ofNat 64 e.d) (VReq.raw (e.tail / 64)) (BitVec.ofNat 18 (e.tail / 16384)))
  | 98 => some (.vadd (Fin.ofNat 32 e.d) (VBin.raw e.tail))
  | 99 => some (.vsub (Fin.ofNat 32 e.d) (VBin.raw e.tail))
  | 100 => some (.vmul (Fin.ofNat 32 e.d) (VBin.raw e.tail))
  | 101 => some (.vmulh (Fin.ofNat 32 e.d) (VBin.raw e.tail))
  | 102 => some (.vmin (Fin.ofNat 32 e.d) (VBin.raw e.tail))
  | 103 => some (.vmax (Fin.ofNat 32 e.d) (VBin.raw e.tail))
  | 104 => some (.vminn (Fin.ofNat 32 e.d) (VBin.raw e.tail))
  | 105 => some (.vmaxn (Fin.ofNat 32 e.d) (VBin.raw e.tail))
  | 106 => some (.vand (Fin.ofNat 32 e.d) (VBin.raw e.tail))
  | 107 => some (.vor (Fin.ofNat 32 e.d) (VBin.raw e.tail))
  | 108 => some (.vxor (Fin.ofNat 32 e.d) (VBin.raw e.tail))
  | 109 => some (.vsll (Fin.ofNat 32 e.d) (VBin.raw e.tail))
  | 110 => some (.vsrl (Fin.ofNat 32 e.d) (VBin.raw e.tail))
  | 111 => some (.vsra (Fin.ofNat 32 e.d) (VBin.raw e.tail))
  | 112 => some (.vsadd (Fin.ofNat 32 e.d) (VBin.raw e.tail))
  | 113 => some (.vssub (Fin.ofNat 32 e.d) (VBin.raw e.tail))
  | 114 => some (.vwmul (Fin.ofNat 32 e.d) (VBin.raw e.tail))
  | 115 => some (.vwmacc (Fin.ofNat 32 e.d) (VBin.raw e.tail))
  | 116 => some (.vwmaccsn (Fin.ofNat 32 e.d) (VBin.raw e.tail))
  | 117 => some (.vnsra (Fin.ofNat 32 e.d) (VBin.raw e.tail))
  | 118 => some (.vmseq (Fin.ofNat 16 e.d) (VBin.raw e.tail))
  | 119 => some (.vmslt (Fin.ofNat 16 e.d) (VBin.raw e.tail))
  | 120 => some (.vmsltn (Fin.ofNat 16 e.d) (VBin.raw e.tail))
  | _ => none

/-- The instruction that the fields of a head and tail with opcodes 0x80 to 0xa6 read as. -/
def rawDecodeD (e : Enc) : Option Instr :=
  match e.op with
  | 128 => some (.vfadd (Fin.ofNat 32 e.d) (VBin.raw e.tail))
  | 129 => some (.vfsub (Fin.ofNat 32 e.d) (VBin.raw e.tail))
  | 130 => some (.vfmul (Fin.ofNat 32 e.d) (VBin.raw e.tail))
  | 131 => some (.vfma (Fin.ofNat 32 e.d) (VFma.raw e.tail))
  | 132 => some (.vfnma (Fin.ofNat 32 e.d) (VFma.raw e.tail))
  | 133 => some (.vfmin (Fin.ofNat 32 e.d) (VBin.raw e.tail))
  | 134 => some (.vfmax (Fin.ofNat 32 e.d) (VBin.raw e.tail))
  | 135 => some (.vfdiv (Fin.ofNat 32 e.d) (VBin.raw e.tail))
  | 136 => some (.vfsqrt (Fin.ofNat 32 e.d) (VUn.raw e.tail))
  | 137 => some (.vfexp2 (Fin.ofNat 32 e.d) (VUn.raw e.tail))
  | 138 => some (.vfrcp (Fin.ofNat 32 e.d) (VUn.raw e.tail))
  | 139 => some (.vmfeq (Fin.ofNat 16 e.d) (VBin.raw e.tail))
  | 140 => some (.vmflt (Fin.ofNat 16 e.d) (VBin.raw e.tail))
  | 141 => some (.vmfle (Fin.ofNat 16 e.d) (VBin.raw e.tail))
  | 142 => some (.vfcvt (Fin.ofNat 32 e.d) (VCvt.raw e.tail))
  | 144 => some (.vredsum (Fin.ofNat 64 e.d) (VRed.raw e.tail))
  | 145 => some (.vredosum (Fin.ofNat 64 e.d) (VRed.raw e.tail))
  | 146 => some (.vredmax (Fin.ofNat 64 e.d) (VRed.raw e.tail))
  | 147 => some (.vredmin (Fin.ofNat 64 e.d) (VRed.raw e.tail))
  | 148 => some (.vfredsum (Fin.ofNat 64 e.d) (VRed.raw e.tail))
  | 149 => some (.vfredosum (Fin.ofNat 64 e.d) (VRed.raw e.tail))
  | 150 => some (.vfredmax (Fin.ofNat 64 e.d) (VRed.raw e.tail))
  | 152 => some (.vslideup (Fin.ofNat 32 e.d) (VBin.raw e.tail))
  | 153 => some (.vslidedn (Fin.ofNat 32 e.d) (VBin.raw e.tail))
  | 154 => some (.vperm (Fin.ofNat 32 e.d) (VBin.raw e.tail))
  | 155 => some (.vcompress (Fin.ofNat 32 e.d) (VUn.raw e.tail))
  | 156 => some (.vexpand (Fin.ofNat 32 e.d) (VUn.raw e.tail))
  | 157 => some (.vbcast (Fin.ofNat 32 e.d) (VBcast.raw e.tail))
  | 158 => some (.vext (Fin.ofNat 64 e.d) (VExt.raw e.tail))
  | 159 => some (.vprefix (Fin.ofNat 32 e.d) (VUn.raw e.tail))
  | 160 => some (.kand (Fin.ofNat 16 e.d) (Fin.ofNat 16 e.tail) (Fin.ofNat 16 (e.tail / 64)))
  | 161 => some (.kor (Fin.ofNat 16 e.d) (Fin.ofNat 16 e.tail) (Fin.ofNat 16 (e.tail / 64)))
  | 162 => some (.kxor (Fin.ofNat 16 e.d) (Fin.ofNat 16 e.tail) (Fin.ofNat 16 (e.tail / 64)))
  | 163 => some (.knot (Fin.ofNat 16 e.d) (Fin.ofNat 16 e.tail))
  | 164 => some (.kpopc (Fin.ofNat 64 e.d) (Fin.ofNat 16 e.tail))
  | 165 => some (.kfirst (Fin.ofNat 64 e.d) (Fin.ofNat 16 e.tail))
  | 166 => some (.kset (Fin.ofNat 16 e.d) (Fin.ofNat 64 e.tail))
  | _ => none

/-- The instruction that the fields of a head and tail with opcodes 0xa8 to 0xbf read as. -/
def rawDecodeE (e : Enc) : Option Instr :=
  match e.op with
  | 168 => if e.tl = 2 then some (.vldTl2 (Fin.ofNat 32 e.d) (VMem.raw e.tail))
    else some (.vldTl3 (Fin.ofNat 32 e.d) (VMem.raw e.tail) (BitVec.ofNat 16 (e.tail / 4294967296)))
  | 169 => if e.tl = 2 then some (.vstTl2 (Fin.ofNat 32 e.d) (VMem.raw e.tail))
    else some (.vstTl3 (Fin.ofNat 32 e.d) (VMem.raw e.tail) (BitVec.ofNat 16 (e.tail / 4294967296)))
  | 170 => if e.tl = 2 then some (.vldsTl2 (Fin.ofNat 32 e.d) (VMem.raw e.tail))
    else some (.vldsTl3 (Fin.ofNat 32 e.d) (VMem.raw e.tail) (BitVec.ofNat 16 (e.tail / 4294967296)))
  | 171 => if e.tl = 2 then some (.vstsTl2 (Fin.ofNat 32 e.d) (VMem.raw e.tail))
    else some (.vstsTl3 (Fin.ofNat 32 e.d) (VMem.raw e.tail) (BitVec.ofNat 16 (e.tail / 4294967296)))
  | 172 => if e.tl = 2 then some (.vlsegTl2 (Fin.ofNat 32 e.d) (VMem.raw e.tail))
    else some (.vlsegTl3 (Fin.ofNat 32 e.d) (VMem.raw e.tail) (BitVec.ofNat 16 (e.tail / 4294967296)))
  | 173 => if e.tl = 2 then some (.vssegTl2 (Fin.ofNat 32 e.d) (VMem.raw e.tail))
    else some (.vssegTl3 (Fin.ofNat 32 e.d) (VMem.raw e.tail) (BitVec.ofNat 16 (e.tail / 4294967296)))
  | 174 => if e.tl = 2 then some (.vgatherTl2 (Fin.ofNat 32 e.d) (VMem.raw e.tail))
    else some (.vgatherTl3 (Fin.ofNat 32 e.d) (VMem.raw e.tail) (BitVec.ofNat 16 (e.tail / 4294967296)))
  | 175 => if e.tl = 2 then some (.vscatterTl2 (Fin.ofNat 32 e.d) (VMem.raw e.tail))
    else some (.vscatterTl3 (Fin.ofNat 32 e.d) (VMem.raw e.tail) (BitVec.ofNat 16 (e.tail / 4294967296)))
  | 176 => if e.tl = 2 then some (.vgatherpTl2 (Fin.ofNat 32 e.d) (VMem.raw e.tail))
    else some (.vgatherpTl3 (Fin.ofNat 32 e.d) (VMem.raw e.tail) (BitVec.ofNat 16 (e.tail / 4294967296)))
  | 177 => if e.tl = 2 then some (.vscatterpTl2 (Fin.ofNat 32 e.d) (VMem.raw e.tail))
    else some (.vscatterpTl3 (Fin.ofNat 32 e.d) (VMem.raw e.tail) (BitVec.ofNat 16 (e.tail / 4294967296)))
  | 178 => if e.tl = 2 then some (.vstqTl2 (Fin.ofNat 32 e.d) (VMem.raw e.tail))
    else some (.vstqTl3 (Fin.ofNat 32 e.d) (VMem.raw e.tail) (BitVec.ofNat 16 (e.tail / 4294967296)))
  | 179 => if e.tl = 2 then some (.vldqTl2 (Fin.ofNat 32 e.d) (VMem.raw e.tail))
    else some (.vldqTl3 (Fin.ofNat 32 e.d) (VMem.raw e.tail) (BitVec.ofNat 16 (e.tail / 4294967296)))
  | 180 => some (.vstream (Fin.ofNat 32 e.d) (VStrm.raw e.tail))
  | 181 => some (.vunbind (Fin.ofNat 32 e.d))
  | 182 => some (.vwait (Fin.ofNat 16 e.d) (VWt.raw e.tail))
  | _ => none

/-- The instruction that the fields of a head and tail with opcodes 0xc0 to 0xdf read as. -/
def rawDecodeF (e : Enc) : Option Instr :=
  match e.op with
  | 192 => some (.mzero (Fin.ofNat 8 e.d))
  | 193 => some (.mopa (Fin.ofNat 8 e.d) (Fin.ofNat 32 e.tail) (Fin.ofNat 32 (e.tail / 64)))
  | 194 => some (.mops (Fin.ofNat 8 e.d) (Fin.ofNat 32 e.tail) (Fin.ofNat 32 (e.tail / 64)))
  | 195 => some (.mgath (BitVec.ofNat 6 e.d) (MGath.raw e.tail))
  | 196 => some (.mopal (Fin.ofNat 8 e.d) (BitVec.ofNat 6 e.tail))
  | 197 => some (.mopax (Fin.ofNat 8 e.d) (Fin.ofNat 16 e.tail))
  | 198 => some (.mrd (Fin.ofNat 32 e.d) (MMove.raw e.tail))
  | 199 => some (.mwr (Fin.ofNat 32 e.d) (MMove.raw e.tail))
  | 200 => if e.tl = 2 then some (.mldTl2 (Fin.ofNat 8 e.d) (MTile.raw e.tail))
    else some (.mldTl3 (Fin.ofNat 8 e.d) (MTile.raw e.tail) (BitVec.ofNat 16 (e.tail / 4294967296)))
  | 201 => if e.tl = 2 then some (.mstTl2 (Fin.ofNat 8 e.d) (MTile.raw e.tail))
    else some (.mstTl3 (Fin.ofNat 8 e.d) (MTile.raw e.tail) (BitVec.ofNat 16 (e.tail / 4294967296)))
  | 208 => some (.fork (ForkArgs.raw e.tail))
  | 209 => some (.rdv)
  | 210 => some (.copy (Fin.ofNat 64 (e.tail / 4096)) (Fin.ofNat 64 e.tail))
  | 211 => some (.copyx (CopyXArgs.raw e.tail))
  | 212 => some (.tbinit (Fin.ofNat 64 e.tail) (Fin.ofNat 64 (e.tail / 64)))
  | 213 => some (.tbarrive (Fin.ofNat 64 e.tail))
  | 214 => some (.tbexpect (Fin.ofNat 64 e.tail) (Fin.ofNat 64 (e.tail / 64)) (bitRaw e.tail 12))
  | 215 => some (.tbwait (Fin.ofNat 64 e.tail) (Fin.ofNat 64 (e.tail / 64)))
  | 216 => some (.tlwait (Fin.ofNat 64 e.d) (BitVec.ofNat 2 (e.tail / 4096)) (Fin.ofNat 64 (e.tail / 64)))
  | 217 => some (.tlread (Fin.ofNat 64 e.d) (BitVec.ofNat 2 (e.tail / 4)) (BitVec.ofNat 2 e.tail))
  | 218 => some (.cbar)
  | 219 => some (.bbar)
  | 220 => some (.glaunch (Fin.ofNat 64 e.d) (BitVec.ofNat 4 (e.tail / 4096)) (Fin.ofNat 64 e.tail))
  | 221 => some (.nend)
  | _ => none

/-- The instruction that the fields of a head and tail with opcodes 0xe0 to 0xff read as. -/
def rawDecodeG (e : Enc) : Option Instr :=
  match e.op with
  | 224 => some (.fence (FenceArgs.raw e.tail))
  | 225 => some (.svf (SvfArgs.raw e.tail))
  | 226 => some (.ljoin (Fin.ofNat 64 e.d) (BitVec.ofNat 10 (e.tail / 4194304)) (bitRaw e.tail 21) (Fin.ofNat 64 e.tail))
  | 227 => some (.lldt (Fin.ofNat 64 e.d) (BitVec.ofNat 10 (e.tail / 4194304)) (Fin.ofNat 64 (e.tail / 64)) (Fin.ofNat 64 e.tail))
  | 228 => some (.lflush)
  | 229 => some (.colst (Fin.ofNat 32 e.d) (BitVec.ofNat 10 (e.tail / 4194304)) (Fin.ofNat 64 (e.tail / 64)) (Fin.ofNat 64 e.tail))
  | 230 => match e.tail / 16384 % 4 with
    | 0 => some (.colwait (Fin.ofNat 64 e.d))
    | 1 => some (.colwaitLayers (Fin.ofNat 64 e.d) (Fin.ofNat 64 e.tail))
    | 2 => some (.colwaitSeq (Fin.ofNat 64 e.d) (Fin.ofNat 64 e.tail))
    | _ => none
  | 231 => some (.discard (Fin.ofNat 64 e.tail) (Fin.ofNat 64 (e.tail / 64)))
  | 232 => some (.migr (Fin.ofNat 64 e.tail) (Fin.ofNat 64 (e.tail / 64)))
  | 240 => match e.tail / 64 % 2 with
    | 0 => some (.vlaunch (Fin.ofNat 64 e.d) (Fin.ofNat 64 e.tail))
    | 1 => some (.vlaunchClear (Fin.ofNat 64 e.d))
    | _ => none
  | 241 => some (.vrlock (Fin.ofNat 64 e.d) (Fin.ofNat 64 e.tail))
  | 242 => some (.vrunlock (bitRaw e.tail 6) (Fin.ofNat 64 e.tail))
  | 243 => some (.vzero (Fin.ofNat 64 e.d) (bitRaw e.tail 22) (Fin.ofNat 64 e.tail) (Fin.ofNat 64 (e.tail / 64)))
  | 244 => some (.vclone (Fin.ofNat 64 e.d) (bitRaw e.tail 22) (Fin.ofNat 64 e.tail) (Fin.ofNat 64 (e.tail / 64)) (Fin.ofNat 64 (e.tail / 4096)))
  | 245 => some (.vquery (Fin.ofNat 64 e.d) (BitVec.ofNat 4 (e.tail / 4096)) (Fin.ofNat 64 e.tail))
  | _ => none

/-- The instruction that the fields of a head and tail read as, before any check. -/
def rawDecode (e : Enc) : Option Instr :=
  if e.op < 0x30 then rawDecodeA e
  else if e.op < 0x60 then rawDecodeB e
  else if e.op < 0x80 then rawDecodeC e
  else if e.op < 0xa8 then rawDecodeD e
  else if e.op < 0xc0 then rawDecodeE e
  else if e.op < 0xe0 then rawDecodeF e
  else rawDecodeG e

/-- The instruction of a head and tail, or none where R95 gives the illegal-instruction trap. -/
def decodeEnc (e : Enc) : Option Instr :=
  match rawDecode e with
  | none => none
  | some i => if wellFormed i && decide (encode i = some e) then some i else none

/-- Halfword `j` of a line read as one little-endian number (R77). -/
def half (line j : Nat) : Nat := line / 65536 ^ j % 65536

/-- Number of heads of a line: NH of the header (R77). -/
def lineNH (line : Nat) : Nat := half line 0 % 32

/-- The sum of the tail lengths of heads 1 to `j` (R79). -/
def tailSum (line : Nat) : Nat → Nat
  | 0 => 0
  | j + 1 => tailSum line j + half line (j + 1) / 16384

/-- ValidateLine of R79: the line is well formed. -/
def lineOk (line : Nat) : Bool :=
  half line 0 / 32 == 0 && lineNH line != 0 && decide (tailSum line (lineNH line) + lineNH line ≤ 31)

/-- The fields of head `j` of a line with its tail, which starts at halfword E(j) (R79). -/
def lineEnc (line j : Nat) : Enc :=
  let h := half line j
  let tl := h / 16384
  Enc.ofHead h (line / 65536 ^ (32 - tailSum line j) % 65536 ^ tl)

/-- The 64-byte line that holds one instruction in slot 1 and nothing else (R77 to R79). -/
def oneLine (e : Enc) : Nat := 1 + e.head * 65536 + e.tail * 65536 ^ (32 - e.tl)

/-- The fields of a table word: spec/opcode_table.json puts the head in the top 16 of `nbits` bits and the tail below
it (log 2). -/
def tableEnc (nbits w : Nat) : Enc :=
  Enc.ofHead (w / 2 ^ (nbits - 16) % 65536) (w % 2 ^ (nbits - 16))

/-- The instruction this decoder reads from a table word, laid out as a code line and read back from it. -/
def decodeTableWord (nbits w : Nat) : Option Instr :=
  let line := oneLine (tableEnc nbits w)
  if lineOk line then decodeEnc (lineEnc line 1) else none

end Sys2Proof
end

