-- ==== Sys2Proof/Machine/Flags.lean ====
section
/-! DEFINITION. Exception flags (R111, R112) and saturation (R106): a set of flags is a number whose bits 4 to 0 are
those of FFLAGS and whose bit 5 is SATF.SAT. -/
namespace Sys2Proof.Machine

/-- Invalid operation (R111). -/
def fNV : Nat := 16
/-- Division by zero (R111). -/
def fDZ : Nat := 8
/-- Overflow (R111). -/
def fOF : Nat := 4
/-- Underflow (R111). -/
def fUF : Nat := 2
/-- Inexact (R111). -/
def fNX : Nat := 1
/-- Saturation (R112). -/
def fSAT : Nat := 32

/-- The flags of `b`, when it holds. -/
def flagIf (b : Bool) (f : Nat) : Nat := if b then f else 0

/-- SetFlags of R106 on FFLAGS: sticky. -/
def orFflags (x : W) (f : Nat) : W := x ||| wd (f % 32)

/-- The sticky SAT bit of SATF. -/
def orSatf (x : W) (f : Nat) : W := x ||| wd (f / 32 % 2)

/-- SatS of R106: saturation to the signed range of `w` bits. -/
def satS (w : Nat) (x : Int) : Int × Nat :=
  let hi : Int := (2 ^ (w - 1) : Nat) - 1
  let lo : Int := -(2 ^ (w - 1) : Nat)
  if hi < x then (hi, fSAT) else if x < lo then (lo, fSAT) else (x, 0)

/-- SatN of R106: saturation to the natural range of `w` bits. -/
def satN (w : Nat) (x : Int) : Int × Nat :=
  let hi : Int := (2 ^ w : Nat) - 1
  if hi < x then (hi, fSAT) else if x < 0 then (0, fSAT) else (x, 0)

/-- RoundShift of R128: the arithmetic shift right by `s` rounded under FXRM.MODE (0 RNU, 1 RNE, 2 RDN, 3 ROD). -/
def roundShift (x : Int) (s mode : Nat) : Int :=
  if s = 0 then x
  else
    let keep : Int := x / (2 ^ s : Nat)
    let rem : Nat := (x % (2 ^ s : Nat)).toNat
    let h := decide (2 ^ (s - 1) ≤ rem)
    let low := decide (rem % 2 ^ (s - 1) ≠ 0)
    let odd := decide (keep % 2 ≠ 0)
    let r := if mode = 0 then h
      else if mode = 1 then h && (low || odd)
      else if mode = 2 then false
      else !odd && (h || low)
    if r then keep + 1 else keep

end Sys2Proof.Machine
end

