-- ==== Sys2Proof/Machine/Phys.lean ====
section
/-! DEFINITION. The physical map: windows, bank-linear fields, the interleaving hash and the on-chip window
(R231 to R236), and what an unlisted byte of memory reads as. -/
namespace Sys2Proof.Machine

/-- Base of the interleaved window (R231). -/
def interBase : Nat := 0x010000000000
/-- End of the interleaved window (R231). -/
def interEnd : Nat := 0x01FC00000000
/-- Base of the on-chip window (R231). -/
def chipBase : Nat := 0x020000000000
/-- End of the on-chip window (R231). -/
def chipEnd : Nat := 0x021000000000
/-- Base of the host and CXL range (R231). -/
def extBase : Nat := 0x040000000000
/-- End of the physical address space (R231). -/
def physEnd : Nat := 0x1000000000000
/-- Base of the addresses under which unbacked lines are kept, one span of 2^48 for each context (R363). -/
def ubBase : Nat := 0x10000000000000000

/-- STACK of a bank-linear address (R232). -/
def linStack (a : Nat) : Nat := a / 2 ^ 36 % 16
/-- LAYER of a bank-linear address (R232). -/
def linLayer (a : Nat) : Nat := a / 2 ^ 32 % 16
/-- BANK of a bank-linear address (R232). -/
def linBank (a : Nat) : Nat := a / 2 ^ 26 % 64
/-- SUB of a bank-linear address (R232). -/
def linSub (a : Nat) : Nat := a / 2 ^ 20 % 64
/-- ROW of a bank-linear address (R232). -/
def linRow (a : Nat) : Nat := a / 2 ^ 10 % 1024
/-- BYTE of a bank-linear address (R232). -/
def linByte (a : Nat) : Nat := a % 1024
/-- A bank-linear address from its fields (R232). -/
def linAddr (stack layer bank sub row byte : Nat) : Nat :=
  stack * 2 ^ 36 + layer * 2 ^ 32 + bank * 2 ^ 26 + sub * 2 ^ 20 + row * 2 ^ 10 + byte

/-- Bitwise exclusive or of the low `w` bits. -/
def xorLow (w a b : Nat) : Nat := (a % 2 ^ w) ^^^ (b % 2 ^ w)

/-- InterleavedToLinear of R234. -/
def interToLin (pa : Nat) : Nat :=
  let o := pa - interBase
  let g := o / 256
  let h := o / 2 ^ 24
  linAddr (xorLow 4 g h) (xorLow 4 (g / 16) (h / 16)) (xorLow 6 (g / 256) (h / 256)) (h % 64) (h / 64)
    (g / 2 ^ 14 % 4 * 256 + o % 256)

/-- The interleaved address of a data byte, the other way round R234. -/
def linToInter (a : Nat) : Nat :=
  let h := linRow a * 64 + linSub a
  let g := xorLow 4 (linStack a) h + 16 * xorLow 4 (linLayer a) (h / 16) + 256 * xorLow 6 (linBank a) (h / 256) +
    2 ^ 14 * (linByte a / 256)
  interBase + h * 2 ^ 24 + g * 256 + linByte a % 256

/-- What a physical address names (R231 to R236). -/
inductive Place where
  | hole
  | dram (lin : Nat) (inter : Bool)
  | spad (core off : Nat)
  | vreg (hart ix : Nat)
  | tile (core ix : Nat)
  | latA (core ix : Nat)
  | latB (core ix : Nat)
  | creg (hart off : Nat)
  | col (stack off : Nat)
  | route (stack off : Nat)
  | ext (pa : Nat)
deriving DecidableEq, Repr

/-- Scratchpad bytes of a core: SPBYTES (R15). -/
def spBytes (sdp : Bool) : Nat := if sdp then 0x600000 else 0x300000

/-- What an offset of a core region names (R236). -/
def corePlace (sdp : Bool) (core off : Nat) : Place :=
  if off < spBytes sdp then .spad core off
  else if off < 0x800000 then .hole
  else if off < 0xE00000 then .vreg (core * 8 + (off - 0x800000) / 0xC0000) ((off - 0x800000) % 0xC0000)
  else if off < 0xE40000 then .tile core (off - 0xE00000)
  else if off < 0xE43000 then .latA core (off - 0xE40000)
  else if off < 0xE44000 then .hole
  else if off < 0xE4A000 then .latB core (off - 0xE44000)
  else if off < 0xE80000 then .hole
  else if off < 0xE90000 then .creg (core * 8 + (off - 0xE80000) / 0x2000) ((off - 0xE80000) % 0x2000)
  else .hole

/-- What an offset of a stack's slot of the on-chip window names (R235). -/
def chipPlace (sdp : Bool) (stack off : Nat) : Place :=
  if off < 0x8000000 then corePlace sdp (stack * 4 + off / 0x2000000) (off % 0x2000000)
  else if off < 0x8040000 then .col stack (off - 0x8000000)
  else if off < 0x9000000 then .hole
  else if off < 0x9000040 then .route stack (off - 0x9000000)
  else .hole

/-- What a physical address names (R231). -/
def placeOf (sdp : Bool) (pa : Nat) : Place :=
  if pa < interBase then (if linRow pa < 1008 then .dram pa false else .hole)
  else if pa < interEnd then .dram (interToLin pa) true
  else if pa < chipBase then .hole
  else if pa < chipEnd then chipPlace sdp ((pa - chipBase) / 2 ^ 32) ((pa - chipBase) % 2 ^ 32)
  else if pa < extBase then .hole
  else if pa < physEnd then .ext pa
  else .hole

/-- On-chip address of a core's scratchpad byte (R235, R236). -/
def spadAddr (core off : Nat) : Nat := chipBase + core / 4 * 2 ^ 32 + core % 4 * 0x2000000 + off

/-- On-chip address of a byte of a stack's Col broadcast region (R235). -/
def colAddr (stack off : Nat) : Nat := chipBase + stack * 2 ^ 32 + 0x8000000 + off

/-- The address under which an unbacked byte of a context is kept (R363). -/
def ubAddr (cid pa : Nat) : Nat := ubBase + cid * 2 ^ 48 + pa

/-- The subarrays of R18, withheld for the save area where the SRAM die is absent. -/
def withheld (sdp : Bool) (lin : Nat) : Bool :=
  !sdp && decide (linLayer lin = 15) && decide (linBank lin = 63) && decide (47 ≤ linSub lin)

/-- A byte that memory does not list: the contents the wipe leaves, zero but for the constant-one row and the
lane-valid row (R248, R318, R422; host memory: log 1). -/
def memDefault (a : Nat) : Byte :=
  if a < interBase then (if linRow a = 1017 ∨ linRow a = 1018 then 255 else 0) else 0

/-- The cache slice of a physical address (R26). -/
def sliceOf (pa : Nat) : Nat := pa / 128 % 61

/-- The set within the slice of a physical address (R26). -/
def setOf (pa : Nat) : Nat := pa / 128 / 61 % 256

/-- Ways of a set (R25). -/
def ways (sdp : Bool) : Nat := if sdp then 32 else 16

/-- The stack at a grid position's neighbour in a direction: 0 north, 1 east, 2 south, 3 west (R10, R31, R34). -/
def neighbour (stack dir : Nat) : Option Nat :=
  if dir = 0 then (if 4 ≤ stack then some (stack - 4) else none)
  else if dir = 1 then (if stack % 4 < 3 then some (stack + 1) else none)
  else if dir = 2 then (if stack < 12 then some (stack + 4) else none)
  else (if 0 < stack % 4 then some (stack - 1) else none)

/-- `n` copies of a 2-bit turn code followed by `rest` (R34). -/
def turnRun (code rest : Nat) : Nat → Nat
  | 0 => rest
  | n + 1 => code + 4 * turnRun code rest n

/-- The reset value of a route-table entry: east or west first, then north or south (R34). -/
def routeReset (src dst : Nat) : BitVec 32 :=
  let dc : Int := (dst % 4 : Nat) - (src % 4 : Nat)
  let dr : Int := (dst / 4 : Nat) - (src / 4 : Nat)
  let v := turnRun (if dr < 0 then 0 else 2) 0 dr.natAbs
  let h := turnRun (if dc < 0 then 3 else 1) v dc.natAbs
  BitVec.ofNat 32 ((dc.natAbs + dr.natAbs) * 2 ^ 28 + h)

/-- The stack of a CXL port (R38). -/
def portStack (p : Nat) : Nat := [1, 2, 4, 7, 8, 11, 13, 14].getD p 0

/-- The base-die fabric island of a stack (R39). -/
def fabricIsland (stack : Nat) : Nat := 64 + stack

/-- The Veld island of a stack (R39). -/
def veldIsland (stack : Nat) : Nat := 80 + stack

/-- Bytes of a page of size code 0 to 11 (R178). -/
def pageBytes (psz : Nat) : Nat :=
  [4096, 16384, 65536, 262144, 0x200000, 0x800000, 0x2000000, 0x8000000, 0x40000000, 0x100000000, 0x400000000,
    0x8000000000].getD psz 4096

/-- Bits 63:57 are all copies of bit 56 (R244, R246). -/
def vaCanon (va : W) : Bool :=
  fld va 56 8 == 0 || fld va 56 8 == 255

end Sys2Proof.Machine
end

