-- ==== Sys2Proof/Machine/Tab.lean ====
section
/-! DEFINITION. Finite tables in one canonical form: keys strictly rising, and no entry equal to the default. -/
namespace Sys2Proof.Machine

/-- A table from numbers to values; a key that is not listed holds the default of its use. -/
abbrev Tab (α : Type) := List (Nat × α)

/-- The value at key `k`, `d` where the table lists none. -/
def tget {α : Type} (d : α) (t : Tab α) (k : Nat) : α :=
  match t with
  | [] => d
  | e :: r => if e.1 = k then e.2 else tget d r k

/-- The table without key `k`. -/
def tdel {α : Type} (t : Tab α) (k : Nat) : Tab α :=
  match t with
  | [] => []
  | e :: r => if e.1 = k then tdel r k else e :: tdel r k

/-- Puts an entry in its place by key. -/
def tins {α : Type} (t : Tab α) (k : Nat) (v : α) : Tab α :=
  match t with
  | [] => [(k, v)]
  | e :: r => if k < e.1 then (k, v) :: e :: r else e :: tins r k v

/-- Writes key `k`; writing the default removes the entry. -/
def tput {α : Type} [DecidableEq α] (d : α) (t : Tab α) (k : Nat) (v : α) : Tab α :=
  if v = d then tdel t k else tins (tdel t k) k v

/-- The canonical form: keys strictly rising above `lo`, no entry equal to its default. -/
def twfFrom {α : Type} [DecidableEq α] (d : Nat → α) (lo : Nat) (t : Tab α) : Bool :=
  match t with
  | [] => true
  | e :: r => decide (lo ≤ e.1) && decide (e.2 ≠ d e.1) && twfFrom d (e.1 + 1) r

/-- Drops every entry whose key does not satisfy `p`. -/
def tfilter {α : Type} (p : Nat → Bool) (t : Tab α) : Tab α :=
  match t with
  | [] => []
  | e :: r => if p e.1 then e :: tfilter p r else tfilter p r

/-- Applies `f` to the values of the table. -/
def tmap {α : Type} (f : Nat → α → α) (t : Tab α) : Tab α :=
  match t with
  | [] => []
  | e :: r => (e.1, f e.1 e.2) :: tmap f r

/-- The keys of a table. -/
def tkeys {α : Type} (t : Tab α) : List Nat := t.map (·.1)

end Sys2Proof.Machine
end

