-- ==== Sys2Proof/Machine/State.lean ====
section
/-! DEFINITION. The state of the part as plain data, and the state right after reset. Each field's docstring names the
rule of spec/ that gives it; a field marked MODEL is the model's own (log 1, log 4). -/
namespace Sys2Proof.Machine

/-- Why the machine stops with a fault. -/
inductive Fault where
  /-- Raised by an access to an unbacked page whose translation leaves the bank-linear window: R363 binds the driver
  and gives no outcome (log 20). Safe: the hardware may go on. -/
  | unbackedOutsideWindow
deriving DecidableEq, Repr

/-- Why an instruction has no meaning in the model. -/
inductive Refusal where
  /-- Raised by an arm of exec whose instruction is not modelled. Safe: nothing is claimed of it. -/
  | notModelled (mnemonic : String)
deriving DecidableEq, Repr

/-- The privilege levels (R383). -/
inductive Level where
  | n | s | m
deriving DecidableEq, Repr

/-- Who executes the next instruction: a hart's scalar stream, a hart's vector queue, or a sequencer of a package
core (R41, R58, R195). -/
inductive Agent where
  | hart (h : Nat) | queue (h : Nat) | mseq (core : Nat) | cseq (core : Nat)
deriving DecidableEq, Repr

/-- One turn of the schedule (MODEL, log 4): an agent runs; a hart issues its next vector instruction into its queue
without waiting for it; a hart's scalar stream runs ahead of its queue; a hart's access goes onto the fabric; an
event of the table happens. -/
inductive Turn where
  | run (a : Agent) | defer (h : Nat) | ahead (h : Nat) | post (h : Nat) | event (i : Instr)
deriving DecidableEq, Repr

/-- The translation port of an access (R241). `copy` is the ENGINE port as copies use it, which R253 and R297 treat in
their own way. -/
inductive Via where
  | scalar | vector | engine | copy
deriving DecidableEq, Repr

/-- A posted access behind which an SVF of direction SV holds later vector accesses: its request, and whether vector
reads and vector writes wait for it (R168). -/
structure SvWait where
  req : Nat
  reads : Bool
  writes : Bool
deriving DecidableEq, Repr

/-- Queue entries behind which an SVF of direction VS holds later scalar accesses: those issued before number `till`,
with the predecessor and the successor set (R168). -/
structure VsWait where
  till : Nat
  pr : Bool
  pw : Bool
  sr : Bool
  sw : Bool
deriving DecidableEq, Repr

/-- An entry of a vector queue or of a queue image: the instruction, the scalar operands it read at issue and the
VTYPE, VL, MFC and FXRM it took (R110, R191, R388); its number among the hart's vector instructions and the posted
accesses that an SVF makes it wait for (R168, R400); and the element at which it starts where TIDX is no longer that
one: a TRET at M that reloads TIDX beside a reissue (R389). -/
structure VEntry where
  pc : W
  instr : Instr
  no : Nat
  sv : List SvWait
  start : Option Nat
  s : Tab W
  vtype : W
  vl : W
  mfc : W
  fxrm : W
deriving DecidableEq, Repr

/-- A wait in progress (R59): the instruction, the deadline clock at its start, the elements met so far (R226), whether
its time-out has expired, and what an LFLUSH noted: lattice type and value of the local replica's lines, by line number
within the stack (R362). -/
structure WaitRec where
  what : Instr
  start : Nat
  met : List Nat
  expired : Bool
  note : List (Nat × Nat × Nat)
deriving DecidableEq, Repr

/-- A stream element that has arrived: its bits, or the fault its refill met as cause and virtual address (R223). -/
structure SElem where
  bits : Nat
  fault : Option (Nat × Nat)
deriving DecidableEq, Repr

/-- A stream binding: base, length, stride (none is unit), the SEW code, LMUL code and format captured at VSTREAM,
the MFC in force then, the cursor, and the elements that have arrived by position (R221, R222, R229). -/
structure Stream where
  base : W
  len : Nat
  stride : Option W
  fmt : Nat
  sew : Nat
  lm : Nat
  mfc : W
  cursor : Nat
  fetched : Tab SElem
deriving DecidableEq, Repr

/-- A strip that an instruction has popped (R222, R223, R229; MODEL, log 31): the instruction's number and PC, the group
base, the stream with its cursor at the start of the strip, and the positions whose refill met a fault: its cause and
address, cause 0 once it has been taken. -/
structure Popped where
  no : Nat
  pc : W
  grp : Nat
  st : Stream
  bad : List (Nat × Nat × Nat)
deriving DecidableEq, Repr

/-- An undelivered refusal of a hart: cause, virtual address, and whether its record was queued (R392, R400). -/
structure PendRef where
  cause : Nat
  va : Nat
  queued : Bool
deriving DecidableEq, Repr

/-- The machine frame of a hart's trap frame (R395). -/
structure MFrame where
  hstat : W
  tcause : W
  tval : W
  tepc : W
  tstat : W
  tidx : W
  valid : Bool
deriving DecidableEq, Repr

/-- A hart (R41): its scalar, vector and mask registers, its control registers and its trap frame. -/
structure Hart where
  /-- A crew member is placed here and has not ended (R41, R311). -/
  live : Bool
  /-- The context of the hart, as its CID reads (R245). -/
  cid : Nat
  /-- The band the hart belongs to, an index of `State.bands` (R41). -/
  band : Nat
  /-- Program counter (R84). -/
  pc : W
  /-- NH of the line the program counter stands in, as fetched (R77, R84). -/
  nh : Nat
  /-- s1 to s63 (R86). -/
  s : Tab W
  /-- Vector register bytes: byte b of vn at n × 24,576 + b (R60, R236). -/
  v : Tab Byte
  /-- Mask bits: bit i of kn at n × 16,384 + i (R187). -/
  k : Tab Bool
  vtype : W
  vl : W
  /-- GRANT.CUR, NEXT, REQ and RCL (R61). -/
  cur : Nat
  next : Nat
  req : Nat
  rcl : Bool
  mfc : W
  fxrm : W
  satf : W
  fflags : W
  hstat : W
  tcause : W
  tval : W
  tepc : W
  tstat : W
  tidx : W
  crewid : W
  bandid : W
  nodeid : W
  ltmo : W
  /-- The trap queue image, where one is held, and the scalar resume PC (R388, R395). -/
  image : Option (List VEntry)
  resumePc : W
  mframe : MFrame
  /-- MENTRY, written by the management firmware (R395). -/
  mentry : W
  /-- Stream bindings by group base (R221). -/
  streams : Tab Stream
  popped : List Popped
  /-- The vector queue, oldest first (R42, R195). -/
  vq : List VEntry
  wait : Option WaitRec
  /-- CBARs and BBARs at which the hart has arrived, and those it has passed (R309). -/
  ncbar : Nat
  nbbar : Nat
  cpass : Nat
  bpass : Nat
  /-- Undelivered refusals, oldest first (R392). -/
  pend : List PendRef
  /-- The hart has resumed and takes its pending delivery before it executes anything (R404). -/
  owed : Bool
  /-- Code lines the hart has fetched, by line address (R81, R170). -/
  ilines : Tab Nat
  /-- Entries of VRLOCKs of this hart that timed out, oldest first, their traps not yet taken (R341). -/
  lockTraps : List Nat
  /-- The number that the next vector instruction of the hart takes: 512 × the step of the one before, plus its hart
  (R168, R214; MODEL, log 62). -/
  vecNo : Nat
  /-- What the SVFs of the hart still hold back (R168). -/
  sv : List SvWait
  vs : List VsWait
  /-- Col entries of the hart's COLSTs not yet broadcast (R378, R379). -/
  colPend : Nat
  /-- The fabric request whose response the hart waits for (R252). -/
  await : Option Nat
  /-- The deadline clock when the hart or an engine of it last made progress (R399). -/
  retiredAt : Nat
deriving DecidableEq, Repr

/-- A present entry of a vector page table: page base bits 56:21, page size code, physical base bits 47:21, and
permissions (R246). -/
structure VptE where
  vpn : Nat
  psz : Nat
  ppn : Nat
  w : Bool
  r : Bool
deriving DecidableEq, Repr

/-- A valid region descriptor (R247); `bad` is malformed. -/
structure RdE where
  base : Nat
  last : Nat
  key : Nat
  cmp : Bool
  ub : Bool
  lt : Nat
  bad : Bool
deriving DecidableEq, Repr

/-- A cached scalar translation of one stack: page base and size, physical base and the permission bits (R179). -/
structure TlbE where
  stack : Nat
  vbase : Nat
  size : Nat
  pbase : Nat
  u : Bool
  x : Bool
  w : Bool
  r : Bool
  d : Bool
deriving DecidableEq, Repr

/-- Where the content of a present unbacked line is (R366): in the cache, in the victim buffer, dropped as clean with its
late frame or with zero as the source of its next refill, or written to its late frame. -/
inductive UbLoc where
  | cache | victim | dropped | zero | late
deriving DecidableEq, Repr

/-- An entry of the directory of migrated pages (R363). -/
structure UbDir where
  base : Nat
  size : Nat
  stack : Nat
deriving DecidableEq, Repr

/-- A context: its control registers and what the device loaded for it (R89, R179, R246, R363 to R368, R416). -/
structure Context where
  installed : Bool
  spt : W
  vptb : W
  rdtb : W
  tvec : W
  exitv : W
  ubpool : W
  /-- Hang watchdog period in µs (R416). -/
  wdog : Nat
  /-- Physical base of the access counters, which memory holds (R251, R416). -/
  acnt : Nat
  vpt : List VptE
  rdt : List RdE
  tlb : List TlbE
  /-- LINES of UBRES by stack (R364). -/
  ubres : Tab Nat
  /-- Present unbacked lines by physical line number (R365, R366). -/
  ubLines : Tab UbLoc
  ubDir : List UbDir
  /-- Physical 4 KiB block number that each late frame in use serves, with the address of its entry in the late-frame
  table, by frame address divided by 4,096 (R366, R367). -/
  frames : Tab (Nat × Nat)
  /-- Fatal code and address of a removal that waits for the end of a debug halt (R398, R403). -/
  removing : Option (Nat × W)
deriving DecidableEq, Repr

/-- What a sequencer does (R58, R286 to R291). -/
inductive SeqPhase where
  | free | running | rest | stopped
deriving DecidableEq, Repr

/-- A sequencer with its copies of the owner's registers (R287, R288) and its fault (R290). -/
structure Seq where
  phase : SeqPhase
  owner : Nat
  /-- The owner's level at the FORK, under which the sequencer's code is fetched (R58, R244, log 34). -/
  level : Level
  pc : W
  nh : Nat
  s : Tab W
  vtype : W
  vl : W
  mfc : W
  fxrm : W
  fflags : W
  satf : W
  tidx : W
  fword : W
  fva : W
  fpc : W
  /-- The lowest refused element of an MST in progress: its number, cause and address (R285). -/
  refused : Option (Nat × Nat × W)
deriving DecidableEq, Repr

/-- The fault of a copy engine, of a launch queue or of a timeline: fault word, virtual address and PC (R290). -/
structure EngFault where
  fword : W
  va : W
  pc : W
deriving DecidableEq, Repr

/-- An accepted copy (R292, R303): its number and timeline, the hart that issued it or owns the copy sequencer that did,
the band of that hart, the node it runs for; VL and SEW; its barrier; its descriptor's offset and contents; the cursor;
the addresses, width, direction and extension of a COPYX; the step of its acceptance, which orders an engine's copies (R292);
and the fault at which it has stopped (R292, R297). -/
structure CopyCtx where
  x : Bool
  opno : Nat
  cid : Nat
  core : Nat
  hart : Nat
  seq : Bool
  band : Nat
  node : Option Nat
  pc : W
  sew : Nat
  vl : Nat
  bar : Option Nat
  desc : Nat
  body : Nat
  i1 : Nat
  i2 : Nat
  i3 : Nat
  boff : Nat
  gran : Nat
  haddr : W
  paddr : W
  wm1 : Nat
  dir : Bool
  sx : Bool
  took : Nat
  fault : Option EngFault
deriving DecidableEq, Repr

/-- A record of the store-fault record queue (R400); `ended` says that its hart has ended, so that it is no later
hart's (R405). -/
structure SfRec where
  va : Nat
  pa : Nat
  cid : Nat
  elem : Nat
  cause : Nat
  dlv : Bool
  crew : Nat
  hart : Nat
  ended : Bool
deriving DecidableEq, Repr

/-- A Glen core (R12): tiles and latches (R270), sequencers, copy engine, store-fault record queue and its grant
ceiling (R65). -/
structure Core where
  /-- The resident context (R45, R271). -/
  resident : Option Nat
  /-- The context that holds slices by lane reclaiming (R45, R271). -/
  incoming : Option Nat
  /-- Tile elements: (i, j) of mt at t × 8,192 + i × 128 + j (R236). -/
  tiles : Tab (BitVec 32)
  latA : Tab (BitVec 32)
  latB : Tab (BitVec 32)
  /-- Rows typed FP32; the others are BF16 (R270). -/
  typA : Tab Bool
  typB : Tab Bool
  mseq : Seq
  cseq : Seq
  copies : List CopyCtx
  /-- The copy node that runs on this core's copy sequencer (R54, R56). -/
  nodeCopy : Option CopyCtx
  sfrq : List SfRec
  /-- Refusals not queued, by context (R401). -/
  lost : Tab Nat
  sfrqh : W
  ceiling : Nat
  /-- Deadline clock at the power-driven reduction that no SETVL has applied yet (R65). -/
  reduceAt : Option Nat
deriving DecidableEq, Repr

/-- A timeline (R260): operations accepted, the counter, the numbers completed above it, those failed, and the error. -/
structure Timeline where
  acc : Nat
  cnt : Nat
  done : List Nat
  err : Option EngFault
deriving DecidableEq, Repr

/-- The states of a layer controller (R376). -/
inductive LState where
  | asleep | catchup | current
deriving DecidableEq, Repr

/-- A word as broadcast to the layer controllers, every row field already advanced (R335, R336), with its place in the
order of the words sent. For VZERO and VCLONE the rows are row numbers of the stack: address divided by 1,024 (R344). -/
structure MoveW where
  kind : Nat
  dst : Nat
  src : Nat
  mod : Nat
  ix : Nat
deriving DecidableEq, Repr

/-- A layer controller (R22, R376): state, horizon, power, mirror of the Col region, activation count, the broadcast
words it has not executed and the steps it has executed. -/
structure Layer where
  st : LState
  horizon : Nat
  powered : Bool
  mirror : Tab Byte
  act : Nat
  fifo : List MoveW
  steps : Nat
deriving DecidableEq, Repr

/-- A Col entry: chunk number, bytes, byte mask, and the hart that stored it (R374). -/
structure ColEntry where
  chunk : Nat
  data : BitVec 256
  mask : BitVec 32
  hart : Nat
deriving DecidableEq, Repr

/-- The states of a hardware queue (R49). -/
inductive QState where
  | idle | active | drain | disabled
deriving DecidableEq, Repr

/-- A hardware queue (R410): registers, graph sequence number (R310), and the tail writes with their times (R48). -/
structure HQueue where
  qbase : W
  cid : Nat
  logn : Nat
  prio : Nat
  st : QState
  terr : Bool
  en : Bool
  head : Nat
  tail : Nat
  qerr : W
  gseq : Nat
  order : Nat
  tails : List (Nat × Nat)
deriving DecidableEq, Repr

/-- The kinds of a Veld operation (R335). -/
inductive VKind where
  | launch | zero | clone
deriving DecidableEq, Repr

/-- An operation of a launch queue: where it counts or the node it runs for; the subarrays of its region, as addresses
divided by 2^20; its rows, as pairs of destination and source, addresses divided by 1,024; and the fields of its
descriptor (R332 to R335, R343). -/
structure VOp where
  kind : VKind
  cid : Nat
  core : Nat
  num : Nat
  node : Option Nat
  subs : List Nat
  rows : List (Nat × Nat)
  va : W
  lmask : Nat
  iter : Nat
  mcoff : Nat
  rstep : Int
  dv : Bool
deriving DecidableEq, Repr

/-- A launch queue (R335): operations held, fault, and the step timer (R331). -/
structure VQueue where
  ops : List VOp
  err : Option EngFault
  lastT : Nat
deriving DecidableEq, Repr

/-- An access to a computing bank that waits for a gap (R337): the bank, the steps before the gap at which it began to wait,
the agent that makes it, the row, and whether a gap has served it. -/
structure GapAsk where
  bank : Nat
  since : Nat
  who : Nat
  row : Nat
  got : Bool
deriving DecidableEq, Repr

/-- The running operation (R335, R336): the validated program; the position of the next word to send: clearing steps
left, iteration, word, LOOP word and repetition; the words sent and whether all are; the write mask of each subarray
where it is not all ones; refreshes and gap accesses by bank, and the step after which each bank last had one; the accesses
that wait for a gap, oldest first (R337); the kind of
the word that a layer executed last, where it is an RPT or an END (R336, R337); the next row of a row operation; when the
locks were taken; and the layer that executed a step last. -/
structure VRun where
  q : Nat
  op : VOp
  prog : List (BitVec 32)
  clear : Nat
  iter : Nat
  ix : Nat
  loopAt : Option Nat
  rep : Nat
  count : Nat
  sent : Bool
  wmask : Tab Nat
  refresh : Tab Nat
  refreshed : Tab Nat
  gaps : Tab Nat
  served : Tab Nat
  asks : List GapAsk
  kinds : Tab Nat
  rowIx : Nat
  start : Nat
  last : Nat
deriving DecidableEq, Repr

/-- A lock entry held by VRLOCK: its context, hart and band, its subarrays and when it was taken (R340). -/
structure VLock where
  cid : Nat
  hart : Nat
  band : Nat
  subs : List Nat
  start : Nat
deriving DecidableEq, Repr

/-- The Veld sequencer of a stack (R335, R337, R340). -/
structure Veld where
  qs : Tab VQueue
  run : Option VRun
  lastQ : Nat
  balanced : Bool
  locks : Tab VLock
deriving DecidableEq, Repr

/-- What one slot of the save area holds of a core (R396). -/
structure Slot where
  band : Nat
  crew : Nat
  harts : List (Nat × Hart)
  tiles : Tab (BitVec 32)
  latA : Tab (BitVec 32)
  latB : Tab (BitVec 32)
  typA : Tab Bool
  typB : Tab Bool
  mseq : Seq
  cseq : Seq
  copies : List CopyCtx
  recs : List SfRec
deriving DecidableEq, Repr

/-- A stack: Col (R372 to R377), queues (R47), Veld sequencer, router (R33, R34), save area (R69) and debug halt. -/
structure Stack where
  colalloc : W
  colallocNew : Option W
  colseq : Nat
  colQ : List ColEntry
  colLog : List ColEntry
  layers : Tab Layer
  queues : Tab HQueue
  veld : Veld
  /-- Route-table entries that differ from their reset values, by destination (R34). -/
  routes : Tab (BitVec 32)
  /-- What each save slot last took; bands name the slots that they hold (R69, R396). -/
  slots : Tab Slot
  halted : Bool
  /-- Unbacked lines in the victim buffer: context and physical line number (R366). -/
  victims : List (Nat × Nat)
deriving DecidableEq, Repr

/-- The kinds of a node (R43, R413). -/
inductive NKind where
  | band | veld | copy
deriving DecidableEq, Repr

/-- The states of a node (R50). -/
inductive NState where
  | waiting | ready | running | suspended | done | failed | cancelled
deriving DecidableEq, Repr

/-- A node (R43, R413): its entry fields, stamp (R48), state, waiting time and what its completion reports. -/
structure Node where
  kind : NKind
  st : NState
  graph : Nat
  ix : Nat
  stack : Nat
  prio : Nat
  cid : Nat
  stamp : List Nat
  /-- The deadline clock when a ready node began to wait, and the waiting time counted before that (R54). -/
  readyAt : Nat
  waited : Nat
  pc : W
  harts : List Nat
  reqs : List (List Nat)
  pay : Nat
  vl : Nat
  sewc : Nat
  label : Nat
  /-- The copy of a copy node as it was accepted or last suspended (R315). -/
  cursor : Option CopyCtx
  band : Option Nat
  fword : W
  fva : W
deriving DecidableEq, Repr

/-- A graph (R43, R51, R415). -/
structure Graph where
  stack : Nat
  queue : Nat
  seq : Nat
  cid : Nat
  compl : W
  nodes : List Nat
  edges : List (Nat × Nat)
  cend : Bool
  exit : Option Nat
  complete : Bool
  /-- What the flush of its completion waits for, once it has begun (R264): line within a stack, lattice type, value. -/
  flush : Option (List (Nat × Nat × Nat))
deriving DecidableEq, Repr

/-- What a running or suspended band does (R50, R66, R67). -/
inductive BPhase where
  | pending | running | stopping | saving | suspended | restoring | ended
deriving DecidableEq, Repr

/-- A band (R41): its node, crews as lists of harts, its pre-emption and the save slots it holds or reserves. -/
structure Band where
  node : Nat
  stack : Nat
  cid : Nat
  phase : BPhase
  crews : List (List Nat)
  /-- Crews that ended by TKILL (R181). -/
  killed : List Nat
  /-- Markers not yet returned: 8 per core for harts, then the matrix and the copy sequencer (R397). -/
  markers : List Nat
  slots : List Nat
  reserved : Nat
  /-- The deadline clock at which the first RCL was set, and the node that waits for the slices (R66). -/
  reclaimAt : Option Nat
  incoming : Option Nat
  preemptAt : Nat
  /-- Harts whose queue the drain deadline has stopped (R67). -/
  drained : List Nat
deriving DecidableEq, Repr

/-- What an atomic does with the old value at the home (R161, R162). -/
inductive AmoOp where
  | add | and | or | xor | min | max | swap
deriving DecidableEq, Repr

/-- What a request asks of the home of its bytes (R155, R161, R162). -/
inductive HomeOp where
  | read
  | write (data : Nat)
  | amo (f : AmoOp) (b : Nat)
  | cas (e w : Nat)
deriving DecidableEq, Repr

/-- A home's answer: the old value or the data, whether any of it is poisoned, whether an atomic takes a permission
fault, and the refused units of a store by offset and cause (R155, R163, R268). -/
structure HomeResp where
  val : Nat
  poison : Bool
  deny : Bool
  refused : List (Nat × Nat)
deriving DecidableEq, Repr

/-- A translated access: virtual and physical address, key id, CMP, LTYPE and UB of its region, its context, the
stack it is made from and the port of its translation (R231, R241, R247). -/
structure Acc where
  va : Nat
  pa : Nat
  key : Nat
  cmp : Bool
  lt : Nat
  ub : Bool
  cid : Nat
  from_ : Nat
  via : Via
deriving DecidableEq, Repr

/-- Where a fabric request is: on its way to its home, its response on the way back, given up as unreachable, or
answered at its source (R35, R252, R268, R418). -/
inductive FPhase where
  | out | back | unreachable | done
deriving DecidableEq, Repr

/-- A request on the fabric: source hart and sequence number, the access, the coverage of its store, the instruction
it serves, its packet's router, turn list, hop count and arrival port, whether the packet has been delivered, tries and
the time it was last sent (R35, R252, R418). -/
structure FReq where
  src : Nat
  /-- The hart that made the request has not ended (R405). -/
  live : Bool
  seq : Nat
  acc : Acc
  n : Nat
  op : HomeOp
  /-- The stack that performs the request, fixed when it is made (R35, R37). -/
  home : Nat
  instr : Instr
  pc : W
  phase : FPhase
  router : Nat
  hops : Nat
  turns : Nat
  came : Option Nat
  here : Bool
  tries : Nat
  sentAt : Nat
  resp : HomeResp
  /-- The packet was lost on the way (R418). -/
  lost : Bool
  /-- The route-table entry value and the moment of its injection, an index of fresh things, which fix the order of its
  arrival (R37). -/
  entry : Nat
  stamp : Nat
  /-- The port of the request had a link-down event after the request was made (R425). -/
  cut : Bool
deriving DecidableEq, Repr

/-- A refusal on its way from a home to the core (R400): the home that refused, and the number of the instruction, which
keep the records of one instruction from one home in ascending element order (R214). -/
structure Refused where
  home : Nat
  group : Nat
  hart : Nat
  live : Bool
  va : Nat
  pa : Nat
  cid : Nat
  elem : Nat
  cause : Nat
deriving DecidableEq, Repr

/-- A lattice line on its way to a replica (R356): the receiving line, the bytes, the poisoned parts and those with open
data bits (R349) read so far, the cells still to be read and those still to be joined, the route-table entry value of its
packets and the order of their injection (R37), the sending line with the TTL that it had, its lattice type and context. -/
structure XLine where
  line : Nat
  data : Nat
  bad : List Nat
  opens : List Nat
  unread : List Nat
  unjoined : List Nat
  entry : Nat
  stamp : Nat
  src : Nat
  ttl : Nat
  lt : Nat
  cid : Nat
deriving DecidableEq, Repr

/-- An outbound window (R408). -/
structure Win where
  valid : Bool
  base : Nat
  limit : Nat
  r : Bool
  w : Bool
  kind : WinKind
deriving DecidableEq, Repr

/-- A CXL port: PCTL (R419), the stacks that have not dropped their translations (R253) and the windows (R408). -/
structure Port where
  en : Bool
  up : Bool
  down : Bool
  width : Nat
  rate : Nat
  dropping : List Nat
  /-- The windows that stood at the link-down event: its range (R253, R425). -/
  downWins : List Win
  enPending : Bool
  wins : Tab Win
deriving DecidableEq, Repr

/-- The life-cycle states (R421). -/
inductive Life where
  | boot | wipe | ready | failed
deriving DecidableEq, Repr

/-- A CXL.mem request held during the wipe (R422). -/
structure Held where
  addr : Nat
  data : Option (BitVec 512)
deriving DecidableEq, Repr

/-- What the device has answered or logged towards the host and the management core (R36, R406, R407, R424). -/
inductive OutMsg where
  | memData (addr : Nat) (data : BitVec 512) (poison : Bool)
  | memAck (addr : Nat)
  | unsupported (port : Nat)
  | routingError (router : Nat)
  | linkDown (link : Nat)
  | snoopData (addr : Nat) (data : BitVec 512)
deriving DecidableEq, Repr

/-- A store to a part through a DRAM window (R262): whether it went through the window whose view is kept, who stored,
the bytes it wrote as a mask, and their values in place. -/
structure AliasStore where
  own : Bool
  who : Nat
  mask : Nat
  data : BitVec 128
  /-- The store's instruction covers the part whole and clears its poison (R240). -/
  clear : Bool
deriving DecidableEq, Repr

/-- What a window may still show of a part that was stored through the other one (R262): its bytes and poison before the
first store that no fence or cleaning has ordered, and the stores to the part since, oldest first. -/
structure Alias where
  base : BitVec 128
  bad : Bool
  log : List AliasStore
deriving DecidableEq, Repr

/-- A part that a window write to a running hart's or core's registers has not performed yet (R238): the writer, the
context, the physical address, the bytes and their values. -/
structure WinPart where
  who : Nat
  cid : Nat
  pa : Nat
  n : Nat
  data : Nat
deriving DecidableEq, Repr

/-- The whole part. -/
structure State where
  harts : Tab Hart
  cores : Tab Core
  stks : Tab Stack
  ctxs : Tab Context
  /-- Bytes by canonical physical address: DRAM by bank-linear address, special rows included (R231, R232),
  scratchpads and Col mirrors by on-chip address (R235), host and peer memory, unbacked lines above 2^64 (R363), and what
the rules lay out nowhere of the save areas of an SRAM die above 2^66 (R395). -/
  mem : Tab Byte
  /-- Poisoned 16-byte parts, by canonical address divided by 16 (R240). -/
  poison : Tab Bool
  /-- Poisoned parts whose data bits a double-bit error has left open, by canonical address divided by 16 (R349). -/
  lost : Tab Bool
  /-- Key id of the last write of a DRAM line, by canonical address divided by 128 (R248). -/
  keyIds : Tab Nat
  /-- The tag in the sidecar of a DRAM line, by canonical address divided by 128: the encoding that its last write
  chose, or a tag from 0b1000 to 0b1111 (R249, R250, R269). -/
  tags : Tab Nat
  /-- Bit errors of DRAM codewords not yet found: 1 or 2, by canonical address divided by 16 (R327). -/
  softErr : Tab Nat
  /-- What a DRAM window may show of a part that the other window stored (R262): key 2 × part + window. -/
  stale : Tab Alias
  /-- Lines of host memory in the slices of the stacks that issue accesses, by 16 × line number + stack: 1 held, 2 held
  with ownership (R27, R251). -/
  hostLines : Tab Nat
  /-- Window writes to registers of running harts that are still to be performed, oldest first (R238). -/
  winParts : List WinPart
  /-- Bytes of lattice parts that the store instruction in progress of a writer has written: by `latKey` of part and writer,
  the instruction's number and a mask (R354). -/
  latAcc : Tab (Nat × Nat)
  /-- TTL of lattice lines by canonical line number (R356), with the lattice type of the line. -/
  ttl : Tab (Nat × Nat × Nat)
  /-- Key slots 1 to 511 (R248, R417). -/
  keys : Tab Nat
  timelines : Tab Timeline
  nodes : Tab Node
  graphs : Tab Graph
  bands : Tab Band
  /-- Nodes whose slices have passed by lane reclaiming and that wait for the tables of their placement, oldest first, each
  with the context of the victim (R66, R246, R263). -/
  arriving : List (Nat × Nat)
  /-- The step of the latest stop of a context's crew on a core, by core * 65536 + context: what was issued before it may
  have been performed before it (R230). The model's own. -/
  crewStops : Tab Nat
  reqs : Tab FReq
  /-- Responses a home keeps until the source acknowledges, by number × 1,024 + source (R268). -/
  served : Tab HomeResp
  seqNo : Tab Nat
  refusals : Tab Refused
  xlines : Tab XLine
  /-- The lines that the stacks have sent in the round that was started last (R356). -/
  xsent : List Nat
  ports : Tab Port
  /-- XSCHED as written, and as in force with the round number, r_B and B (R355, R356). -/
  xsched : W
  xschedNow : W
  round : Nat
  roundBase : Nat
  roundTime : Nat
  life : Life
  fuse : Fuse
  fuseNew : Option Fuse
  /-- The SRAM die is present (R14, R15). -/
  sdp : Bool
  mbarg : Tab W
  mbcmd : W
  mbstat : W
  /-- Host's and firmware's package limit in W (R424). -/
  clampHost : Nat
  clampFw : Nat
  /-- Months to the first wear limit and ageing by island in mV (R424). -/
  eol : W
  ageing : Tab Nat
  /-- Islands whose clock is lowered, and gated core islands (R40, R65, R424). -/
  slow : Tab Bool
  gated : Tab Bool
  /-- Delay before a Veld operation by stack (R424). -/
  veldDelay : Tab Nat
  /-- Mesh links taken down and links stopped by back-pressure, by 4 × stack + direction, the latter × 4 + VC
  (R33, R418). -/
  linksDown : Tab Bool
  linkOff : Tab Bool
  /-- Flits of other traffic than the requests of `reqs` in the receiver's buffer of a link and VC (R33). -/
  linkFlits : Tab Nat
  held : List Held
  out : List OutMsg
  /-- TIME on stack 0 in ns since the end of reset, and the clock of every time-out, which debug halts freeze
  (R91, R403). -/
  time : Nat
  clock : Nat
  /-- Steps taken (MODEL, log 3): the argument of the free values; and the step at which reset ended (R91). -/
  ticks : Nat
  resetTick : Nat
  /-- Fresh indexes of nodes, graphs, bands, requests, refusals and exchanged lines (MODEL, log 4). -/
  fresh : Nat
  /-- Who runs next, and the turns that the world outside the model chooses (MODEL, log 4). -/
  agent : Agent
  sched : List Turn
  /-- The hart whose queue head stops at an element boundary, and the element (MODEL, log 4): set by DRAIN_DEADLINE. -/
  cutAt : Option (Nat × Nat)
  /-- The instruction of this step whose access goes onto the fabric (MODEL, log 4). -/
  posting : Option Instr
deriving DecidableEq, Repr

/-- VTYPE at reset: ILL = 1, every other field zero (R87). -/
def vtypeReset : W := 0x8000000000000000#64

/-- A machine frame that holds nothing (R395). -/
def MFrame.empty : MFrame :=
  { hstat := 0, tcause := 0, tval := 0, tepc := 0, tstat := 0, tidx := 0, valid := false }

/-- A hart on which nothing is placed, every register at its reset value (R46, R61, R87, R108 to R113, R185, R358,
R384, R385; zero where the spec gives none, log 5). -/
def Hart.reset : Hart :=
  { live := false, cid := 0, band := 0, pc := 0, nh := 0, s := [], v := [], k := [], vtype := vtypeReset, vl := 0,
    cur := 0, next := 0, req := 0, rcl := false, mfc := 0, fxrm := 0, satf := 0, fflags := 0, hstat := 0,
    tcause := 0, tval := 0, tepc := 0, tstat := 0, tidx := 0, crewid := 0, bandid := 0, nodeid := 0, ltmo := 0,
    image := none, resumePc := 0, mframe := MFrame.empty, mentry := 0, streams := [], popped := [], vq := [], wait := none,
    ncbar := 0, nbbar := 0, cpass := 0, bpass := 0, pend := [], owed := false, ilines := [], lockTraps := [], vecNo := 0, sv := [], vs := [],
    colPend := 0, await := none,
    retiredAt := 0 }

/-- A context that is not installed; SPT.MODE reads 0b1010 (R245). -/
def Context.reset : Context :=
  { installed := false, spt := 0xA000000000000000#64, vptb := 0, rdtb := 0, tvec := 0, exitv := 0, ubpool := 0,
    wdog := 0, acnt := 0, vpt := [], rdt := [], tlb := [], ubres := [], ubLines := [],
    ubDir := [], frames := [], removing := none }

/-- A free sequencer (R58). -/
def Seq.reset : Seq :=
  { phase := .free, owner := 0, level := .n, pc := 0, nh := 0, s := [], vtype := vtypeReset, vl := 0, mfc := 0, fxrm := 0,
    fflags := 0, satf := 0, tidx := 0, fword := 0, fva := 0, fpc := 0, refused := none }

/-- A core with nothing resident, its latches and tiles +0 (R270, R422) and all 48 slices under its ceiling (R65). -/
def Core.reset : Core :=
  { resident := none, incoming := none, tiles := [], latA := [], latB := [], typA := [], typB := [],
    mseq := Seq.reset, cseq := Seq.reset, copies := [], nodeCopy := none, sfrq := [], lost := [],
    sfrqh := 0, ceiling := 48, reduceAt := none }

/-- A timeline that has accepted nothing (R260). -/
def Timeline.reset : Timeline := { acc := 0, cnt := 0, done := [], err := none }

/-- A layer after the wipe: current, with an empty mirror (R376, log 5). -/
def Layer.reset : Layer :=
  { st := .current, horizon := 0, powered := true, mirror := [], act := 0, fifo := [], steps := 0 }

/-- A queue in IDLE (R49) with the reset values of R410. -/
def HQueue.reset : HQueue :=
  { qbase := 0, cid := 0, logn := 0, prio := 0, st := .idle, terr := false, en := true, head := 0, tail := 0,
    qerr := 0, gseq := 0, order := 0, tails := [] }

/-- An empty launch queue (R335). -/
def VQueue.reset : VQueue := { ops := [], err := none, lastT := 0 }

/-- A Veld sequencer at rest, balanced (R417); queue 0 is the first to be served (R335, log 105). -/
def Veld.reset : Veld := { qs := [], run := none, lastQ := 3, balanced := true, locks := [] }

/-- A stack after reset: COLALLOC.SEQN = 0x30 (R372), COLSEQ = 0 (R373). -/
def Stack.reset : Stack :=
  { colalloc := 0x30#64, colallocNew := none, colseq := 0, colQ := [], colLog := [], layers := [], queues := [],
    veld := Veld.reset, routes := [], slots := [], halted := false, victims := [] }

/-- A port whose link is not trained (R419). -/
def Port.reset : Port :=
  { en := false, up := false, down := false, width := 0, rate := 0, dropping := [], downWins := [], enPending := false, wins := [] }

/-- A window that covers nothing (R408). -/
def Win.reset : Win := { valid := false, base := 0, limit := 0, r := false, w := false, kind := .host }

/-- The part right after reset: in BOOT with no firmware, nothing resident and no turn given (R420, R421). The
scheduled turns and the SRAM die's presence are log 4 and log 6. -/
def State.reset : State :=
  { harts := [], cores := [], stks := [], ctxs := [], mem := [], poison := [], lost := [], keyIds := [], tags := [],
    softErr := [], stale := [], hostLines := [], winParts := [], latAcc := [], ttl := [], keys := [], timelines := [], nodes := [], graphs := [],
    bands := [], arriving := [], crewStops := [], reqs := [], served := [], seqNo := [], refusals := [], xlines := [], xsent := [], ports := [],
    xsched := 0x3E80001#64, xschedNow := 0x3E80001#64, round := 0, roundBase := 0, roundTime := 0,
    life := .boot, fuse := .prod, fuseNew := none, sdp := true, mbarg := [], mbcmd := 0, mbstat := 0,
    clampHost := 1800, clampFw := 1800, eol := 0xFFFF#64, ageing := [], slow := [], gated := [], veldDelay := [],
    linksDown := [], linkOff := [], linkFlits := [], held := [], out := [], time := 0, clock := 0, ticks := 0, resetTick := 0,
    fresh := 0, agent := .hart 0, sched := [], cutAt := none, posting := none }

end Sys2Proof.Machine
end

