-- ==== Sys2Proof/Machine/Regs.lean ====
section
/-! DEFINITION. Reading and writing the parts of the state: harts, cores, stacks, contexts, registers, timelines and
the composed control registers. -/
namespace Sys2Proof.Machine

/-- Hart `h` (R13). -/
def State.hart (s : State) (h : Nat) : Hart := tget Hart.reset s.harts h
/-- Writes hart `h`. -/
def State.setHart (s : State) (h : Nat) (x : Hart) : State := { s with harts := tput Hart.reset s.harts h x }
/-- Changes hart `h`. -/
def State.modHart (s : State) (h : Nat) (f : Hart → Hart) : State := s.setHart h (f (s.hart h))
/-- Package core `c` (R12). -/
def State.core (s : State) (c : Nat) : Core := tget Core.reset s.cores c
/-- Writes package core `c`. -/
def State.setCore (s : State) (c : Nat) (x : Core) : State := { s with cores := tput Core.reset s.cores c x }
/-- Changes package core `c`. -/
def State.modCore (s : State) (c : Nat) (f : Core → Core) : State := s.setCore c (f (s.core c))
/-- Stack `t` (R10). -/
def State.stack (s : State) (t : Nat) : Stack := tget Stack.reset s.stks t
/-- Writes stack `t`. -/
def State.setStack (s : State) (t : Nat) (x : Stack) : State := { s with stks := tput Stack.reset s.stks t x }
/-- Changes stack `t`. -/
def State.modStack (s : State) (t : Nat) (f : Stack → Stack) : State := s.setStack t (f (s.stack t))
/-- Context `c`. -/
def State.ctx (s : State) (c : Nat) : Context := tget Context.reset s.ctxs c
/-- Writes context `c`. -/
def State.setCtx (s : State) (c : Nat) (x : Context) : State := { s with ctxs := tput Context.reset s.ctxs c x }
/-- Changes context `c`. -/
def State.modCtx (s : State) (c : Nat) (f : Context → Context) : State := s.setCtx c (f (s.ctx c))

/-- Package core of a hart (R12, R13). -/
def coreOf (h : Nat) : Nat := h / 8
/-- Stack of a hart (R13). -/
def stackOf (h : Nat) : Nat := h / 32
/-- Stack of a package core (R12). -/
def coreStack (c : Nat) : Nat := c / 4

/-- The harts of a package core. -/
def coreHarts (c : Nat) : List Nat := upto (8 * c) 8
/-- Every hart. -/
def allHarts : List Nat := upto 0 512
/-- The harts the state lists, which are those that do not stand at their reset values. -/
def State.listedHarts (s : State) : List Nat := tkeys s.harts

/-- S(n) of R106: s0 reads zero (R86). -/
def rdS (t : Tab W) (n : Nat) : W := if n = 0 then 0 else tget 0 t n
/-- SetS of R106: a write to s0 is discarded (R86). -/
def wrS (t : Tab W) (n : Nat) (x : W) : Tab W := if n = 0 then t else tput 0 t n x

/-- Scalar register of a hart. -/
def Hart.rd (h : Hart) (n : SReg) : W := rdS h.s n.val
/-- Writes a scalar register of a hart. -/
def Hart.wr (h : Hart) (n : SReg) (x : W) : Hart := { h with s := wrS h.s n.val x }

/-- Byte `b` of vector register `n`; a byte at or above CUR × 512 reads zero (R60, R237). -/
def Hart.vbyte (h : Hart) (n b : Nat) : Byte :=
  if b < h.cur * 512 ∧ b < 0x6000 then tget 0 h.v (n * 0x6000 + b) else 0
/-- Writes byte `b` of vector register `n`; a byte outside the granted slices is discarded (R60, R63). -/
def Hart.setVbyte (h : Hart) (n b : Nat) (x : Byte) : Hart :=
  if b < h.cur * 512 ∧ b < 0x6000 then { h with v := tput 0 h.v (n * 0x6000 + b) x } else h

/-- Mask bits held in each of k1 to k15 (R187). -/
def Hart.mlen (h : Hart) : Nat := h.cur * 256
/-- K(n, i) of R106: k0 reads all ones (R86, R187). -/
def Hart.kbit (h : Hart) (n i : Nat) : Bool :=
  if n = 0 then true else if i < h.mlen ∧ i < 16384 then tget false h.k (n * 16384 + i) else false
/-- SetK of R106. -/
def Hart.setKbit (h : Hart) (n i : Nat) (b : Bool) : Hart :=
  if n = 0 then h else if i < h.mlen ∧ i < 16384 then { h with k := tput false h.k (n * 16384 + i) b } else h

/-- GRANT (R61). -/
def Hart.grant (h : Hart) : W :=
  wd (b01 h.rcl * 2 ^ 24 + h.req % 256 * 65536 + h.next % 256 * 256 + h.cur % 256)

/-- The current level of HSTAT.LVL (R384). -/
def lvlOf (x : Nat) : Level := if x = 0 then .n else if x = 1 then .s else .m
/-- The code of a level (R384). -/
def Level.code : Level → Nat
  | .n => 0
  | .s => 1
  | .m => 3
/-- Level() of R106. -/
def Hart.level (h : Hart) : Level := lvlOf (fld h.hstat 1 2)
/-- HSTAT.H (R384). -/
def Hart.inHandler (h : Hart) : Bool := bit h.hstat 0
/-- A level is at or above another (R89). -/
def Level.atLeast (a b : Level) : Bool := decide (b.code ≤ a.code)

/-- A program counter from the 57 bits that a control register keeps of it: bits 63:57 repeat bit 56, as in every address
that translates (R241, R385, log 63). -/
def pcField (x : W) : W := sext 57 (fld x 0 57)

/-- HARTID of a hart: STACK, CORE and HART (R13). -/
def hartid (h : Nat) : W := wd (h % 512)

/-- Steps added up from the step at which reset ended (R91). -/
def sumFrom (f : Nat → Nat) (lo : Nat) : Nat → Nat
  | 0 => 0
  | n + 1 => sumFrom f lo n + f (lo + n)

/-- CYCLE of a package core (R91). -/
def State.cycle (s : State) (core : Nat) : W :=
  wd (sumFrom (Config.cyclesIn core) s.resetTick (s.ticks - s.resetTick))

/-- TIME as a stack reads it: within 2 ns of every other stack (R91). -/
def State.timeAt (s : State) (stack : Nat) : W := wd (s.time - Config.timeLag stack % 3)

/-- Key of the timeline of a context on a package core (R260). -/
def tlKey (cid core t : Nat) : Nat := (cid * 64 + core) * 4 + t
/-- A timeline. -/
def State.tl (s : State) (k : Nat) : Timeline := tget Timeline.reset s.timelines k
/-- Changes a timeline. -/
def State.modTl (s : State) (k : Nat) (f : Timeline → Timeline) : State :=
  { s with timelines := tput Timeline.reset s.timelines k (f (s.tl k)) }

/-- The counter moves to n once operations 1 to n have all completed, at once to the highest (R260, R265). -/
def tlCatch (done : List Nat) : Nat → Nat → Nat
  | 0, c => c
  | n + 1, c => if done.contains (c + 1) then tlCatch done n (c + 1) else c

/-- Operation `n` completes (R260, R265). -/
def Timeline.complete (t : Timeline) (n : Nat) : Timeline :=
  let done := n :: t.done
  let c := tlCatch done done.length t.cnt
  { t with cnt := c, done := done.filter (fun m => decide (c < m)) }

/-- The copy engine of a core is faulted: the fault of its oldest accepted copy that has one (R292). -/
def Core.cfault (k : Core) : Option EngFault := k.copies.findSome? (·.fault)

/-- Accepting an operation gives it the next number (R260). -/
def Timeline.accept (t : Timeline) : Timeline := { t with acc := t.acc + 1 }

/-- A node, a graph and a band of the scheduler. -/
def State.node? (s : State) (n : Nat) : Option Node := (s.nodes.find? (fun e => e.1 == n)).map (·.2)
/-- The graph of an index. -/
def State.graph? (s : State) (n : Nat) : Option Graph := (s.graphs.find? (fun e => e.1 == n)).map (·.2)
/-- The band of an index. -/
def State.band? (s : State) (n : Nat) : Option Band := (s.bands.find? (fun e => e.1 == n)).map (·.2)
/-- Writes a node. -/
def State.setNode (s : State) (n : Nat) (x : Node) : State := { s with nodes := tins (tdel s.nodes n) n x }
/-- Writes a graph. -/
def State.setGraph (s : State) (n : Nat) (x : Graph) : State := { s with graphs := tins (tdel s.graphs n) n x }
/-- Writes a band. -/
def State.setBand (s : State) (n : Nat) (x : Band) : State := { s with bands := tins (tdel s.bands n) n x }
/-- Changes a node, where it exists. -/
def State.modNode (s : State) (n : Nat) (f : Node → Node) : State :=
  match s.node? n with
  | none => s
  | some x => s.setNode n (f x)
/-- Changes a band, where it exists. -/
def State.modBand (s : State) (n : Nat) (f : Band → Band) : State :=
  match s.band? n with
  | none => s
  | some x => s.setBand n (f x)
/-- Changes a graph, where it exists. -/
def State.modGraph (s : State) (n : Nat) (f : Graph → Graph) : State :=
  match s.graph? n with
  | none => s
  | some x => s.setGraph n (f x)

/-- Harts of a context that are live. -/
def State.ctxHarts (s : State) (cid : Nat) : List Nat :=
  s.listedHarts.filter (fun h => (s.hart h).live && (s.hart h).cid == cid)

/-- A live hart of the context stands on the package core (R237). -/
def State.onCore (s : State) (cid core : Nat) : Bool :=
  (coreHarts core).any (fun h => (s.hart h).live && (s.hart h).cid == cid)

/-- A debug halt is active somewhere in the package (R403). -/
def State.anyHalt (s : State) : Bool := s.stks.any (fun e => e.2.halted)

/-- Layer `l` of a stack. -/
def Stack.layer (t : Stack) (l : Nat) : Layer := tget Layer.reset t.layers l
/-- Changes layer `l` of a stack. -/
def Stack.modLayer (t : Stack) (l : Nat) (f : Layer → Layer) : Stack :=
  { t with layers := tput Layer.reset t.layers l (f (t.layer l)) }
/-- Hardware queue `q` of a stack. -/
def Stack.queue (t : Stack) (q : Nat) : HQueue := tget HQueue.reset t.queues q
/-- Changes hardware queue `q` of a stack. -/
def Stack.modQueue (t : Stack) (q : Nat) (f : HQueue → HQueue) : Stack :=
  { t with queues := tput HQueue.reset t.queues q (f (t.queue q)) }
/-- Launch queue `q`. -/
def Veld.queue (v : Veld) (q : Nat) : VQueue := tget VQueue.reset v.qs q
/-- Changes launch queue `q`. -/
def Veld.modQueue (v : Veld) (q : Nat) (f : VQueue → VQueue) : Veld :=
  { v with qs := tput VQueue.reset v.qs q (f (v.queue q)) }
/-- Changes the Veld sequencer of a stack. -/
def State.modVeld (s : State) (t : Nat) (f : Veld → Veld) : State :=
  s.modStack t (fun x => { x with veld := f x.veld })

/-- Changes the sequencer of a core: the matrix sequencer or the copy sequencer (R58). -/
def Core.modSeq (c : Core) (matrix : Bool) (f : Seq → Seq) : Core :=
  if matrix then { c with mseq := f c.mseq } else { c with cseq := f c.cseq }
/-- A sequencer of a core. -/
def Core.seq (c : Core) (matrix : Bool) : Seq := if matrix then c.mseq else c.cseq

/-- The route-table entry of a stack towards a destination (R34). -/
def Stack.route (t : Stack) (me dst : Nat) : BitVec 32 := tget (routeReset me dst) t.routes dst

/-- The canonical form of memory: addresses strictly rising, and no byte equal to what an unlisted address reads as
(log 1). -/
def Memory.wf (m : Tab Byte) : Bool := twfFrom memDefault 0 m

/-- Bytes of memory at a canonical address. -/
def State.byteAt (s : State) (a : Nat) : Byte := tget (memDefault a) s.mem a
/-- Stores a byte at a canonical address. -/
def State.putByte (s : State) (a : Nat) (b : Byte) : State := { s with mem := tput (memDefault a) s.mem a b }
/-- `n` bytes from a canonical address, as a little-endian number (R5). -/
def State.natAt (s : State) (a n : Nat) : Nat := leNat ((upto a n).map s.byteAt)
/-- Stores a list of bytes from a canonical address upward. -/
def State.putBytes (s : State) (a : Nat) : List Byte → State
  | [] => s
  | b :: r => (s.putByte a b).putBytes (a + 1) r
/-- Stores the low `n` bytes of a number at a canonical address (R5). -/
def State.putNat (s : State) (a n x : Nat) : State := s.putBytes a (leBytes n x)
/-- The 16-byte part at part number `p` is poisoned (R240). -/
def State.poisoned (s : State) (p : Nat) : Bool := tget false s.poison p
/-- Sets or clears the poison of a part (R240). -/
def State.setPoison (s : State) (p : Nat) (b : Bool) : State :=
  { s with poison := tput false s.poison p b, lost := if b then s.lost else tdel s.lost p }
/-- A poisoned part whose data bits may hold any pattern (R349). -/
def State.isLost (s : State) (p : Nat) : Bool := s.poisoned p && tget false s.lost p
/-- A part is poisoned, and its data bits are open where `o` says so (R240, R349). -/
def State.spoil (s : State) (p : Nat) (o : Bool) : State :=
  let t := s.setPoison p true
  { t with lost := tput false t.lost p o }

/-- The fault word of R290. -/
def faultWord (cause eng idx : Nat) : W := wd (cause % 256 * 2 ^ 40 + eng % 4 * 2 ^ 38 + idx % 2 ^ 32)

end Sys2Proof.Machine
end

