-- ==== Sys2Proof/Machine/Ctrl.lean ====
section
/-! DEFINITION. The control registers: levels (R89), reading (R172) and writing field by field (R173), and the moves of
store-fault records (R400, R401). -/
namespace Sys2Proof.Machine

/-- The Read column of R89; none for an unassigned index (R90). -/
def crReadLevel (idx : Nat) : Option Level :=
  if idx ≤ 0x006 ∨ idx = 0x010 ∨ idx = 0x023 then some .n
  else if 0x011 ≤ idx ∧ idx ≤ 0x017 then some .s
  else if 0x020 ≤ idx ∧ idx ≤ 0x022 then some .s
  else if idx = 0x028 ∨ idx = 0x029 then some .s
  else if 0x030 ≤ idx ∧ idx ≤ 0x033 then some .n
  else if 0x038 ≤ idx ∧ idx ≤ 0x03B then some .n
  else if idx = 0x040 ∨ idx = 0x041 then some .s
  else if idx = 0x048 ∨ idx = 0x049 then some .n
  else if 0x050 ≤ idx ∧ idx ≤ 0x053 then some .n
  else if idx = 0x058 ∨ idx = 0x059 then some .n
  else none

/-- The Write column of R89; none for a dash. -/
def crWriteLevel (idx : Nat) : Option Level :=
  if 0x003 ≤ idx ∧ idx ≤ 0x006 then some .n
  else if 0x010 ≤ idx ∧ idx ≤ 0x017 then some .s
  else if idx = 0x021 ∨ idx = 0x022 then some .m
  else if idx = 0x028 then some .s
  else if idx = 0x038 ∨ idx = 0x03A then some .m
  else if idx = 0x03B then some .n
  else if idx = 0x040 ∨ idx = 0x041 then some .m
  else none

/-- The records of a context in a core's queue (R401). -/
def Core.records (c : Core) (cid : Nat) : List SfRec := c.sfrq.filter (fun r => r.cid == cid)

/-- SFRQN as a hart of context `cid` reads it (R401). -/
def Core.sfrqn (c : Core) (cid : Nat) : W :=
  let lost := tget 0 c.lost cid
  wd (b01 (decide (0 < lost)) * 2 ^ 63 + Nat.min lost 0xFFFFFFFF * 65536 + (c.records cid).length)

/-- CAPSP (R15). -/
def capsp (sdp : Bool) : W := wd (b01 sdp * 2 ^ 32 + spBytes sdp)

/-- CAPL2 (R16). -/
def capl2 (sdp : Bool) : W :=
  wd (61 * 2 ^ 48 + b01 (!sdp) * 2 ^ 32 + (if sdp then 0x03D00000 else 0x01E80000))

/-- Present unbacked lines of a context whose current stack is `st`: USED (R363, R364). -/
def Context.curStack (c : Context) (pa : Nat) : Nat :=
  match c.ubDir.find? (fun d => decide (d.base ≤ pa) && decide (pa < d.base + d.size)) with
  | some d => d.stack
  | none => linStack pa

/-- USED of UBRES (R364). -/
def Context.used (c : Context) (st : Nat) : Nat :=
  (c.ubLines.filter (fun e => c.curStack (e.1 * 128) == st)).length

/-- UBRES as a stack holds it (R364). -/
def Context.ubresAt (c : Context) (st : Nat) : W := wd (c.used st % 2 ^ 20 * 2 ^ 32 + tget 0 c.ubres st)

/-- CR(idx) of R106 as hart `h` reads it; an unassigned index reads zero (R237). -/
def crRead (s : State) (h idx : Nat) : W :=
  let x := s.hart h
  let c := s.ctx x.cid
  let k := s.core (coreOf h)
  let t := s.stack (stackOf h)
  match idx with
  | 0x000 => x.vtype
  | 0x001 => x.vl
  | 0x002 => x.grant
  | 0x003 => x.mfc
  | 0x004 => x.fxrm
  | 0x005 => x.satf
  | 0x006 => x.fflags
  | 0x010 => x.hstat
  | 0x011 => c.tvec
  | 0x012 => x.tcause
  | 0x013 => x.tval
  | 0x014 => x.tepc
  | 0x015 => x.tstat
  | 0x016 => x.tidx
  | 0x017 => c.exitv
  | 0x020 => c.spt
  | 0x021 => c.vptb
  | 0x022 => c.rdtb
  | 0x023 => wd (x.cid % 65536)
  | 0x028 => k.sfrqh
  | 0x029 => k.sfrqn x.cid
  | 0x030 => wd (s.tl (tlKey x.cid (coreOf h) 0)).cnt
  | 0x031 => wd (s.tl (tlKey x.cid (coreOf h) 1)).cnt
  | 0x032 => wd (s.tl (tlKey x.cid (coreOf h) 2)).cnt
  | 0x033 => wd (s.tl (tlKey x.cid (coreOf h) 3)).cnt
  | 0x038 => t.colalloc
  | 0x039 => wd t.colseq
  | 0x03A => s.xsched
  | 0x03B => x.ltmo
  | 0x040 => c.ubresAt (stackOf h)
  | 0x041 => c.ubpool
  | 0x048 => capsp s.sdp
  | 0x049 => capl2 s.sdp
  | 0x050 => hartid h
  | 0x051 => x.crewid
  | 0x052 => x.bandid
  | 0x053 => x.nodeid
  | 0x058 => s.cycle (coreOf h)
  | 0x059 => s.timeAt (stackOf h)
  | _ => 0

/-- Replaces bits lo + w − 1 down to lo of `old` by those of `new`. -/
def copyFld (old new : W) (lo w : Nat) : W := setFld old lo w (fld new lo w)

/-- A written MFC: RM keeps its value where the new one is reserved (R108, R109). -/
def mfcWrite (old new : W) : W :=
  let a := copyFld (copyFld (copyFld old new 48 16) new 18 2) new 0 10
  if 4 < fld new 15 3 then a else copyFld a new 15 3

/-- A written TVEC or EXITV: a PC that no head can have leaves the register (R385). -/
def vecWrite (old new : W) : W :=
  let pc := fld new 0 57
  if pc = 0 then 0 else if pc % 2 = 1 ∨ pc / 2 % 32 = 0 then old else wd pc

/-- A written XSCHED: MODE 0b11 leaves MODE (R355). -/
def xschedWrite (old new : W) : W :=
  let a := copyFld old new 16 16
  if fld new 0 2 = 3 then a else copyFld a new 0 2

/-- A written COLALLOC: SEQN above 64 leaves SEQN (R372). -/
def colallocWrite (old new : W) : W := if 64 < fld new 0 7 then old else copyFld old new 0 7

/-- The 32 bytes of a store-fault record (R400). -/
def SfRec.word (r : SfRec) : Nat :=
  r.va % 2 ^ 64 * 2 ^ 192 + r.pa % 2 ^ 48 * 2 ^ 144 + r.cid % 2 ^ 16 * 2 ^ 128 + r.elem % 2 ^ 32 * 2 ^ 96 +
    r.cause % 256 * 256 + b01 r.dlv * 128 + r.crew % 4 * 32 + r.hart % 8

/-- Stores records into a scratchpad, 32 bytes apart; each covers two parts whole, whose poison clears (R240, R401). -/
def storeRecs (s : State) (a : Nat) : List SfRec → State
  | [] => s
  | r :: rest =>
    storeRecs (((s.putNat a 32 r.word).setPoison (a / 16) false).setPoison (a / 16 + 1) false) (a + 32) rest

/-- Removes the oldest `n` records of a context from a queue (R401). -/
def dropOldest (cid : Nat) : Nat → List SfRec → List SfRec
  | 0, l => l
  | _ + 1, [] => []
  | n + 1, r :: l => if r.cid = cid then dropOldest cid n l else r :: dropOldest cid (n + 1) l

/-- A write to SFRQH of a core by a hart of context `cid` (R401). -/
def sfrqhWrite (s : State) (core cid : Nat) (new : W) : State :=
  let c := s.core core
  let off := fld new 0 32
  let recs := (c.records cid).take (fld new 32 7)
  let bad := decide (off % 32 ≠ 0) || decide (spBytes s.sdp < off + 32 * recs.length)
  let moved := if bad then [] else recs
  let left := dropOldest cid moved.length c.sfrq
  let s1 := storeRecs s (spadAddr core off) moved
  s1.setCore core { c with
    sfrqh := wd (moved.length * 2 ^ 32 + off)
    sfrq := left
    lost := if (left.filter (fun r => r.cid == cid)).isEmpty && !bad then tdel c.lost cid else c.lost }

/-- WriteCR of R106 and R173 for hart `h`: RW fields take the new value, RO and reserved fields keep theirs. -/
def crWrite (s : State) (h idx : Nat) (new : W) : State :=
  let x := s.hart h
  let onCtx (f : Context → Context) := s.modCtx x.cid f
  match idx with
  | 0x003 => s.setHart h { x with mfc := mfcWrite x.mfc new }
  | 0x004 => s.setHart h { x with fxrm := copyFld x.fxrm new 0 2 }
  | 0x005 => s.setHart h { x with satf := copyFld x.satf new 0 1 }
  | 0x006 => s.setHart h { x with fflags := copyFld x.fflags new 0 5 }
  | 0x010 => s.setHart h { x with hstat := copyFld (copyFld x.hstat new 8 2) new 5 1 }
  | 0x011 => onCtx (fun c => { c with tvec := vecWrite c.tvec new })
  | 0x012 => s.setHart h { x with tcause := copyFld (copyFld x.tcause new 62 2) new 0 8 }
  | 0x013 => s.setHart h { x with tval := new }
  | 0x014 => s.setHart h { x with tepc := copyFld x.tepc new 0 57 }
  | 0x015 => s.setHart h { x with tstat := new }
  | 0x016 => s.setHart h { x with tidx := copyFld x.tidx new 0 18 }
  | 0x017 => onCtx (fun c => { c with exitv := vecWrite c.exitv new })
  | 0x020 => onCtx (fun c => { c with spt := copyFld c.spt new 0 36 })
  | 0x021 => onCtx (fun c => { c with vptb := copyFld c.vptb new 20 28 })
  | 0x022 => onCtx (fun c => { c with rdtb := copyFld c.rdtb new 12 36 })
  | 0x028 => sfrqhWrite s (coreOf h) x.cid new
  | 0x038 => s.modStack (stackOf h) (fun t => 
      { t with colallocNew := some (colallocWrite (t.colallocNew.getD t.colalloc) new) })
  | 0x03A => { s with xsched := xschedWrite s.xsched new }
  | 0x03B => s.setHart h { x with ltmo := copyFld (copyFld x.ltmo new 63 1) new 0 32 }
  | 0x040 => onCtx (fun c => { c with ubres := tput 0 c.ubres (stackOf h) (fld new 0 20) })
  | 0x041 => onCtx (fun c => { c with ubpool := copyFld c.ubpool new 12 52 })
  | _ => s

end Sys2Proof.Machine
end

