-- ==== Sys2Proof/Machine/Lattice.lean ====
section
/-! DEFINITION. The lattice types: cells, order and join (R350), and the partners of an exchange round (R356). -/
namespace Sys2Proof.Machine

/-- Bytes of a cell of a lattice type (R350). -/
def cellBytes (t : Nat) : Nat :=
  [0, 4, 4, 8, 4, 4, 8, 8, 8, 16, 64].getD t 4

/-- Bytes of the unit in which an ordinary access to a lattice region works: the cell, or one slot of COUNT-VEC
(R156). -/
def unitBytes (t : Nat) : Nat := if t = 10 then 4 else cellBytes t

/-- Key of R350, the order key of MAX-F32. -/
def f32Key (x : Nat) : Nat := if x / 2 ^ 31 % 2 = 0 then x % 2 ^ 32 + 2 ^ 31 else 2 ^ 32 - 1 - x % 2 ^ 32

/-- An FP32 pattern is a NaN (R116). -/
def f32Nan (x : Nat) : Bool := decide (0x7F800000 < x % 2 ^ 31)

/-- `x` is at or above `y` in the order of type `t`, for one unit: a cell, or a slot of COUNT-VEC (R350). -/
def atOrAbove (t x y : Nat) : Bool :=
  match t with
  | 2 => decide (sInt 32 y ≤ sInt 32 x)
  | 4 => decide (x ≤ y)
  | 5 => decide (f32Key y ≤ f32Key x)
  | 6 => (x ||| y) == x
  | 7 => (x &&& y) == x
  | 9 => (x ||| y) == x
  | _ => decide (y ≤ x)

/-- The join of two units (R350). -/
def latJoin (t x y : Nat) : Nat :=
  match t with
  | 6 => x ||| y
  | 7 => x &&& y
  | 9 => x ||| y
  | _ => if atOrAbove t x y then x else y

/-- A unit of a store that R353 rejects: not at or above the current value, or a NaN in a MAX-F32 region. -/
def storeRejected (t old new : Nat) : Bool := (t == 5 && f32Nan new) || !atOrAbove t new old

/-- The slots of a COUNT-VEC cell added up: its value (R350). -/
def slotSum (x : Nat) : Nat → Nat
  | 0 => 0
  | n + 1 => slotSum x n + x / 2 ^ (32 * n) % 2 ^ 32

/-- The value of a cell as a program reads it (R350). -/
def cellValue (t x : Nat) : Nat := if t = 10 then slotSum x 16 else x

/-- The condition of LLDT: the value reaches the threshold (R361). -/
def reaches (t val thr : Nat) : Bool := if t = 10 then decide (thr ≤ val) else atOrAbove t val thr

/-- K of an exchange mode (R356): 0 ring, 1 butterfly, 2 all-pairs. -/
def modeK (mode : Nat) : Nat := if mode = 0 then 15 else if mode = 1 then 4 else 1

/-- The stacks to which stack `st` sends in round `r` (R356). -/
def partners (mode st r : Nat) : List Nat :=
  if mode = 0 then [(st + 1) % 16]
  else if mode = 1 then [st ^^^ 2 ^ (r % 4)]
  else (upto 0 16).filter (fun x => x != st)

end Sys2Proof.Machine
end

