-- ==== Sys2Proof/Machine/Compress.lean ====
section
/-! DEFINITION. Line compression: the encodings of R249, their stored bytes and sectors, and the choice of a tag (R249,
R250, R269). A line is a number of 128 bytes, the byte at the lowest address in bits 7:0. -/
namespace Sys2Proof.Machine

/-- Word `i` of `w` bytes of a line (R249). -/
def lineWord (w x i : Nat) : Nat := x / 2 ^ (8 * w * i) % 2 ^ (8 * w)

/-- The words of `w` bytes of a line. -/
def lineWords (w x : Nat) : List Nat := (upto 0 (128 / w)).map (lineWord w x)

/-- The delta of word `i` against word 0, modulo the word width and read as signed (R249). -/
def lineDelta (w x i : Nat) : Int :=
  sInt (8 * w) (lineWord w x i + 2 ^ (8 * w) - lineWord w x 0)

/-- Every delta of `w`-byte words fits `d` bytes (R249). -/
def deltasFit (w d x : Nat) : Bool :=
  (upto 0 (128 / w)).all fun i =>
    decide (-(2 ^ (8 * d - 1) : Int) ≤ lineDelta w x i) && decide (lineDelta w x i < 2 ^ (8 * d - 1))

/-- A line fits the encoding of a tag (R249). -/
def tagFits (x tag : Nat) : Bool :=
  match tag with
  | 0 => true
  | 1 => x % 2 ^ 1024 == 0
  | 2 => (lineWords 8 x).all (· == lineWord 8 x 0)
  | 3 => deltasFit 8 1 x
  | 4 => deltasFit 8 2 x
  | 5 => deltasFit 4 1 x
  | 6 => deltasFit 4 2 x
  | 7 => deltasFit 2 1 x
  | _ => false

/-- The 32-byte sectors that a tag takes (R249); a tag that no encoding has takes the four of an uncompressed line. -/
def tagSectors (tag : Nat) : Nat := [4, 0, 1, 1, 2, 2, 3, 3].getD tag 4

/-- The base width and the delta width of a delta encoding, in bytes (R249). -/
def tagWidths (tag : Nat) : Nat × Nat := [(0, 0), (0, 0), (8, 0), (8, 1), (8, 2), (4, 1), (4, 2), (2, 1)].getD tag (0, 0)

/-- The tags in the order of R249: fewer sectors first, and the lower tag of a tie. -/
def tagOrder : List Nat := [1, 2, 3, 4, 5, 6, 7]

/-- The tag of a compressed line: the first in order that fits, else uncompressed (R249). -/
def chooseTag (x : Nat) : Nat := (tagOrder.find? (tagFits x)).getD 0

/-- The tag that the last write of a line leaves: that of R249 under CMP = 1 for a line without poison (R250, R269). -/
def lineTag (cmp poisoned : Bool) (x : Nat) : Nat := if cmp && !poisoned then chooseTag x else 0

/-- The deltas of a line as stored: `d` bytes each, in order. -/
def storedDeltas (w d x : Nat) : Nat :=
  (upto 0 (128 / w)).foldr (fun i r => lowBits (8 * d) (lineDelta w x i) + 2 ^ (8 * d) * r) 0

/-- The stored bytes of a line under a tag, as a number whose unused bytes are zero (R249). -/
def storedLine (tag x : Nat) : Nat :=
  if tag = 1 then 0
  else if 2 ≤ tag ∧ tag ≤ 7 then
    let w := (tagWidths tag).1
    let d := (tagWidths tag).2
    lineWord w x 0 + (if d = 0 then 0 else 2 ^ (8 * w) * storedDeltas w d x)
  else x % 2 ^ 1024

/-- The line that stored bytes stand for, whatever CMP holds at the read (R250). -/
def readLine (tag y : Nat) : Nat :=
  if tag = 1 then 0
  else if 2 ≤ tag ∧ tag ≤ 7 then
    let w := (tagWidths tag).1
    let d := (tagWidths tag).2
    let delta (i : Nat) : Nat := if d = 0 then 0 else lowBits (8 * w) (sInt (8 * d) (y / 2 ^ (8 * w) / 2 ^ (8 * d * i)))
    (upto 0 (128 / w)).foldr (fun i r => (y + delta i) % 2 ^ (8 * w) + 2 ^ (8 * w) * r) 0
  else y % 2 ^ 1024

end Sys2Proof.Machine
end

