-- ==== Sys2Proof/Machine/Dram.lean ====
section
/-! DEFINITION. The DRAM of a home: its parts and lines, poison (R240), key ids (R248), compression tags (R250), window aliases
(R262) and soft errors (R327). -/
namespace Sys2Proof.Machine

/-- What an instruction's store covers whole: canonical line numbers and part numbers (R240, R248). -/
structure Cov where
  lines : List Nat
  parts : List Nat
deriving DecidableEq, Repr

/-- The parts of a range of bytes. -/
def partsOf (a n : Nat) : List Nat := if n = 0 then [] else upto (a / 16) ((a + n - 1) / 16 + 1 - a / 16)

/-- The lines of a range of bytes. -/
def linesOf (a n : Nat) : List Nat := if n = 0 then [] else upto (a / 128) ((a + n - 1) / 128 + 1 - a / 128)

/-- The coverage of one store of `n` bytes at a canonical address. -/
def covOf (a n : Nat) : Cov :=
  { lines := (linesOf a n).filter (fun l => decide (a ≤ 128 * l) && decide (128 * l + 128 ≤ a + n))
    parts := (partsOf a n).filter (fun p => decide (a ≤ 16 * p) && decide (16 * p + 16 ≤ a + n)) }

/-- The data bits of a codeword that a double-bit error leaves open may hold any pattern: they take free values with every
write that leaves the codeword open, and with every one that computes it from an open one (R349, log 15). -/
def reopen (s : State) (p : Nat) : State :=
  if s.isLost p then s.putBytes (16 * p) ((upto (16 * p) 16).map (Config.lostBits s.ticks)) else s

/-- A soft error of a codeword shows when the codeword is read: one bit is corrected, two poison it and leave its data
bits open (R327, R349, log 15). -/
def settleSoft (s : State) (p : Nat) : State :=
  let e := tget 0 s.softErr p
  if e = 0 then s
  else
    let s1 := { s with softErr := tdel s.softErr p }
    if e = 1 then s1 else reopen (s1.spoil p true) p

/-- What a window may still show of a part that was stored through the other window (R262). -/
def staleAt (s : State) (p w : Nat) : Option Alias := (s.stale.find? (fun e => e.1 == 2 * p + w)).map (·.2)

/-- The bits of the bytes that a mask names. -/
def byteMask (m : Nat) : Nat := leNat ((upto 0 16).map (fun i => if m.testBit i then 255 else 0))

/-- A part with one more store on it: its bytes and poison. -/
def AliasStore.on (e : AliasStore) (x : Nat × Bool) : Nat × Bool :=
  let m := byteMask e.mask
  (x.1 - (x.1 &&& m) + (e.data.toNat &&& m), x.2 && !e.clear)

/-- What a window shows once it has seen `k` of the other window's stores, with every store of its own (R262). -/
def aliasView : Nat → List AliasStore → Nat × Bool → Nat × Bool
  | _, [], x => x
  | k, e :: l, x =>
    if e.own then aliasView k l (e.on x)
    else match k with
      | 0 => aliasView 0 l x
      | k + 1 => aliasView k l (e.on x)

/-- The first `k` of the other window's stores are seen from now on. -/
def aliasSeen : Nat → List AliasStore → List AliasStore
  | 0, l => l
  | _ + 1, [] => []
  | k + 1, e :: l => if e.own then e :: aliasSeen (k + 1) l else { e with own := true } :: aliasSeen k l

/-- Keeps what a window may still show of a part; nothing once every store to it is seen. -/
def setAlias (s : State) (o : Nat) (a : Alias) : State :=
  { s with stale := if a.log.all (·.own) then tdel s.stale o else tins (tdel s.stale o) o a }

/-- One 16-byte part as a read through window `w` finds it, with its poison (R256, R262). It shows a state of the part in
which the stores through the other window are seen up to one of them, so that an atomic's read may also find an old value
(log 12). -/
def partRead (s : State) (p w : Nat) : (Nat × Bool) × State :=
  match staleAt s p w with
  | none => ((s.natAt (16 * p) 16, s.poisoned p), s)
  | some a =>
    let k := Config.aliasNew s.ticks p % ((a.log.filter (fun e => !e.own)).length + 1)
    (aliasView k a.log (a.base.toNat, a.bad), setAlias s (2 * p + w) { a with log := aliasSeen k a.log })

/-- Parts in ascending order as one little-endian number, poisoned when any of them is. -/
def partsRead (w : Nat) : List Nat → State → (Nat × Bool) × State
  | [], s => ((0, false), s)
  | p :: r, s =>
    let a := partRead s p w
    let b := partsRead w r a.2
    ((a.1.1 + 2 ^ 128 * b.1.1, a.1.2 || b.1.2), b.2)

/-- A DRAM line reads as poisoned to a key: its recorded key id differs, or its tag is bad (R248, R250). -/
def lineHidden (s : State) (key l : Nat) : Bool := tget 0 s.keyIds l != key || decide (8 ≤ tget 0 s.tags l)

/-- A read of `n` bytes of DRAM (R240, R248, R250, R327). -/
def dramRead (s : State) (key a n w : Nat) : (Nat × Bool) × State :=
  let ps := partsOf a n
  let r := partsRead w ps (ps.foldl settleSoft s)
  ((r.1.1 / 2 ^ (8 * (a % 16)) % 2 ^ (8 * n), r.1.2 || (linesOf a n).any (lineHidden s key)), r.2)

/-- A tag that no read decodes is replaced: a partial store leaves every part poisoned first (R250). -/
def settleTag (cov : Cov) (s : State) (l : Nat) : State :=
  if 8 ≤ tget 0 s.tags l then
    let s1 := { s with tags := tdel s.tags l }
    if cov.lines.contains l then s1 else (upto (8 * l) 8).foldl (fun s p => s.setPoison p true) s1
  else s

/-- The bytes of a part that a store of `n` bytes `x` at `a` writes: their mask and their values in place. -/
def partStore (a n x p : Nat) : Nat × Nat :=
  let lo := Nat.max a (16 * p)
  let hi := Nat.min (a + n) (16 * p + 16)
  ((2 ^ (hi - lo) - 1) * 2 ^ (lo - 16 * p), x / 2 ^ (8 * (lo - a)) % 2 ^ (8 * (hi - lo)) * 2 ^ (8 * (lo - 16 * p)))

/-- A part about to be stored through window `w`: the other window may go on showing what it shows, and what window `w`
may still show takes the store (R262, log 12). -/
def noteAlias (w who a n x : Nat) (cov : Cov) (s : State) (p : Nat) : State :=
  let d := partStore a n x p
  let e (own : Bool) : AliasStore :=
    { own := own, who := who, mask := d.1, data := BitVec.ofNat 128 d.2, clear := cov.parts.contains p }
  let other := match staleAt s p (1 - w) with
    | none => { base := BitVec.ofNat 128 (s.natAt (16 * p) 16), bad := s.poisoned p, log := [e false] }
    | some b => { b with log := b.log ++ [e false] }
  let s1 := setAlias s (2 * p + (1 - w)) other
  match staleAt s p w with
  | none => s1
  | some b => setAlias s1 (2 * p + w) { b with log := b.log ++ [e true] }

/-- Parts covered whole lose their poison and soft errors (R240, R326). -/
def clearParts (cov : Cov) (s : State) (p : Nat) : State :=
  if cov.parts.contains p then { s.setPoison p false with softErr := tdel s.softErr p } else settleSoft s p

/-- A part of a line is poisoned (R240). -/
def linePoisoned (s : State) (l : Nat) : Bool := (upto (8 * l) 8).any s.poisoned

/-- A line that has been written: it takes the key of an access that covers it whole, and the encoding that its bytes, its
poison and CMP choose (R248 to R250, R269). -/
def stampLine (key : Nat) (cmp : Bool) (cov : Cov) (s : State) (l : Nat) : State :=
  { s with keyIds := if cov.lines.contains l then tput 0 s.keyIds l key else s.keyIds
           tags := tput 0 s.tags l (lineTag cmp (linePoisoned s l) (s.natAt (128 * l) 128)) }

/-- A store of `n` bytes to DRAM that its home accepts. -/
def dramWrite (s : State) (key : Nat) (cmp : Bool) (a n x w who : Nat) (cov : Cov) : State :=
  let s1 := (linesOf a n).foldl (settleTag cov) s
  let s2 := (partsOf a n).foldl (clearParts cov) ((partsOf a n).foldl (noteAlias w who a n x cov) s1)
  (linesOf a n).foldl (stampLine key cmp cov) ((partsOf a n).foldl reopen (s2.putNat a n x))

/-- A write by the device itself to backed DRAM, under key id 0 (R367); nothing is stored in the rows that R18 withholds. -/
def devPut (s : State) (a n x : Nat) : State :=
  if withheld s.sdp a then s else dramWrite s 0 false a n x 0 640 (covOf a n)

/-- What the device itself finds in bytes of backed DRAM; free in the rows that R18 withholds (log 9). -/
def devNat (s : State) (a n : Nat) : Nat :=
  if withheld s.sdp a then leNat ((upto a n).map Config.holeByte) else s.natAt a n

end Sys2Proof.Machine
end

