-- ==== Sys2Proof/Machine/Remove.lean ====
section
/-! DEFINITION. Node states (R50), the end of harts and crews (R181, R311, R405), and fatal removal of a context
(R71, R338, R368, R398). -/
namespace Sys2Proof.Machine

/-- A node state from which no transition leads (R50, R51). -/
def NState.final : NState → Bool
  | .waiting => false
  | .ready => false
  | .running => false
  | .suspended => false
  | .done => true
  | .failed => true
  | .cancelled => true

/-- The state of a node. -/
def State.nst (s : State) (n : Nat) : NState :=
  match s.node? n with
  | none => .cancelled
  | some x => x.st

/-- One waiting node of a graph takes the transition its predecessors allow (R50). -/
def settleNode (g : Graph) (s : State) (p : Nat × Nat) : State :=
  -- p is (index in the graph, node)
  if s.nst p.2 ≠ .waiting then s
  else
    let preds := (g.edges.filter (fun e => e.2 == p.1)).map (fun e => s.nst (g.nodes.getD e.1 0))
    if preds.any (fun t => t == .failed || t == .cancelled) then s.modNode p.2 (fun x => { x with st := .cancelled })
    else if preds.all (fun t => t == .done) then
      s.modNode p.2 (fun x => { x with st := .ready, readyAt := s.clock, waited := 0 })
    else s

/-- Every waiting node of a graph takes the transition its predecessors allow, in index order (R50, R414). -/
def settleGraph (s : State) (gi : Nat) : State :=
  match s.graph? gi with
  | none => s
  | some g => (g.nodes.zipIdx.map fun p => (p.2, p.1)).foldl (settleNode g) s

/-- A node reaches a state of R50 and its graph settles. -/
def setNodeState (s : State) (n : Nat) (st : NState) : State :=
  match s.node? n with
  | none => s
  | some x => settleGraph (s.setNode n { x with st := st }) x.graph

/-- A node fails with a fault word and address, unless it has reached a final state (R50, R414, R426). -/
def failNode (s : State) (n : Nat) (fw va : W) : State :=
  match s.node? n with
  | none => s
  | some x =>
    if x.st.final then s
    else settleGraph (s.setNode n { x with st := .failed, fword := fw, fva := va }) x.graph

/-- The tiles, latches and row types of a core as R270 gives them for a placement. -/
def Core.clearMatrix (c : Core) : Core := { c with tiles := [], latA := [], latB := [], typA := [], typB := [] }

/-- A context whose last crew has left a core holds it no more; where it was the resident one, the core passes to the
context that holds slices there by lane reclaiming (R45, R271). -/
def settleCore (s : State) (core : Nat) : State :=
  let c := s.core core
  let inc := c.incoming.filter (fun n => s.onCore n core)
  match c.resident with
  | none => s
  | some r =>
    if s.onCore r core then s.setCore core { c with incoming := inc }
    else
      match inc with
      | none => s.setCore core { c with resident := none, incoming := none }
      | some n => s.setCore core { c.clearMatrix with resident := some n, incoming := none }

/-- The refusals of a hart still on their way, and those that its requests may meet, count as those of an ended hart
(R405). -/
def orphan (s : State) (h : Nat) : State :=
  { s with refusals := s.refusals.map (fun e => if e.2.hart = h then (e.1, { e.2 with live := false }) else e)
           reqs := s.reqs.map (fun e => if e.2.src = h then (e.1, { e.2 with live := false }) else e) }

/-- Col entries of an ended hart stay in their order but count for no hart (R374). -/
def orphanCol (s : State) (h : Nat) : State :=
  let f (e : ColEntry) : ColEntry := if e.hart = h then { e with hart := 512 } else e
  { s with stks := tmap (fun _ t => { t with colQ := t.colQ.map f }) s.stks }

/-- The records of an ended hart stay in the queue of its core, and are no later hart's (R181, R405). -/
def orphanRecs (s : State) (h : Nat) : State :=
  let f (r : SfRec) : SfRec := if r.hart = h % 8 ∧ r.cid = (s.hart h).cid then { r with ended := true } else r
  s.modCore (coreOf h) (fun c => { c with sfrq := c.sfrq.map f })

/-- The window writes to a hart's registers that are not performed yet concern it no more once it has ended (R238). -/
def dropParts (s : State) (h : Nat) : State :=
  let keep (w : WinPart) : Bool := match placeOf s.sdp w.pa with
    | .vreg g _ => g != h
    | .creg g _ => g != h
    | .tile _ _ => true
    | .hole => true
    | .dram _ _ => true
    | .spad _ _ => true
    | .latA _ _ => true
    | .latB _ _ => true
    | .col _ _ => true
    | .route _ _ => true
    | .ext _ => true
  { s with winParts := s.winParts.filter keep }

/-- A hart on which nothing is placed any more; MENTRY, which the firmware wrote, stays (R395). -/
def Hart.vacant (x : Hart) : Hart := { Hart.reset with mentry := x.mentry }

/-- The hart ends: its slices are zeroed and freed (R181, R311). -/
def clearHart (s : State) (h : Nat) : State :=
  orphanCol (orphan ((dropParts (orphanRecs s h) h).modHart h Hart.vacant) h) h

/-- A band whose harts have all ended ends with its node: FAILED after a fatal removal, else DONE (R50, R71). -/
def settleBand (s : State) (bi : Nat) : State :=
  match s.band? bi with
  | none => s
  | some b =>
    if b.phase = .ended ∨ b.phase = .suspended ∨ (b.crews.flatten.any fun h => (s.hart h).live && (s.hart h).band == bi)
    then s
    else
      let s1 := s.setBand bi { b with phase := .ended, reserved := 0 }
      match s.node? b.node with
      | none => s1
      | some n =>
        if n.st.final then s1
        else setNodeState s1 b.node (if n.fword = 0 then .done else .failed)

/-- A context is in use: it is installed, or harts of it still run their exit routine (R71, R179). -/
def State.usesCtx (s : State) (cid : Nat) : Bool := (s.ctx cid).installed || !(s.ctxHarts cid).isEmpty

/-- The records of a context leave the store-fault record queues when the context ends (R401). -/
def dropRecords (s : State) (cid : Nat) : State :=
  { s with cores := tmap (fun _ c => { c with sfrq := c.sfrq.filter (fun r => r.cid != cid),
                                              lost := tdel c.lost cid }) s.cores }

/-- A fault word with free fields, its reserved bits zero (R6, R290). -/
def freeFaultWord (v : W) : W := v &&& 0xFFC0FFFFFFFF#64

/-- A timeline takes the error state, with fault fields that R71 leaves unstated (log 18). -/
def postError (s : State) (k : Nat) : State :=
  s.modTl k (fun t =>
    match t.err with
    | some _ => t
    | none => { t with err := some { fword := freeFaultWord (Config.unstated s.ticks (4 * k)), va := Config.unstated s.ticks (4 * k + 1),
                                     pc := Config.unstated s.ticks (4 * k + 2) } })

/-- The copies of a context leave a copy engine and post an error to their timelines (R71, R296). -/
def dropCopies (cid core : Nat) (s : State) : State :=
  let c := s.core core
  let mine := c.copies.filter (fun x => x.cid == cid)
  let s1 := if mine.isEmpty then s else postError s (tlKey cid core 0)
  let s2 := s1.modCore core (fun c => { c with
    copies := c.copies.filter (fun x => x.cid != cid) })
  match c.nodeCopy with
  | none => s2
  | some x =>
    if x.cid = cid then
      postError (s2.modCore core (fun c => { c with nodeCopy := none })) (tlKey cid x.core 3)
    else s2

/-- The copies of a hart whose crew TKILL ends, and those of its copy sequencer, leave the engine and post an error
(R181, R296). -/
def dropHartCopies (h : Nat) (s : State) : State :=
  let core := coreOf h
  let c := s.core core
  let bi := (s.hart h).band
  let mine (x : CopyCtx) : Bool := x.hart == h && x.band == bi
  let s1 := s.modCore core (fun c => { c with
    copies := c.copies.filter (fun x => !mine x) })
  if c.copies.any mine then postError s1 (tlKey (s.hart h).cid core 0) else s1

/-- The sequencers owned by a hart stop and are freed, and each timeline they use takes the error state (R71, R181). -/
def dropSeqs (h : Nat) (s : State) : State :=
  let core := coreOf h
  let cid := (s.hart h).cid
  let c := s.core core
  let s1 := if c.mseq.phase ≠ .free ∧ c.mseq.owner = h then
      postError (s.modCore core (fun c => { c with mseq := Seq.reset })) (tlKey cid core 1) else s
  if c.cseq.phase ≠ .free ∧ c.cseq.owner = h then
    postError (s1.modCore core (fun c => { c with cseq := Seq.reset })) (tlKey cid core 0) else s1

/-- A context's queued Veld operations are dropped and post errors; the running one finishes (R338). -/
def dropVeld (cid st : Nat) (s : State) : State :=
  let v := (s.stack st).veld
  let runs := match v.run with
    | none => fun _ _ => false
    | some r => fun q (o : VOp) => decide (r.q = q) && decide (r.op = o)
  let gone := (upto 0 4).flatMap fun q => (v.queue q).ops.filter fun o => o.cid == cid && !runs q o
  let s1 := s.modVeld st fun v => { v with qs := tmap (fun q x =>
    { x with ops := x.ops.filter (fun o => !(o.cid == cid && !runs q o)) }) v.qs }
  gone.foldl (fun s o => if o.node.isSome then s else postError s (tlKey cid o.core 2)) s1

/-- The late-frame table of a context's pool is cleared and its unbacked lines are dropped on every stack (R368). -/
def dropUnbacked (s : State) (cid : Nat) : State :=
  let c := s.ctx cid
  let s1 := c.frames.foldl (fun s e => devPut s e.2.2 8 0) s
  let lo := ubAddr cid 0
  let keep (k : Nat) : Bool := decide (k < lo) || decide (lo + 2 ^ 48 ≤ k)
  { s1.setCtx cid { c with ubLines := [], ubDir := [], frames := [] } with
    mem := tfilter keep s1.mem
    poison := tfilter (fun p => keep (16 * p)) s1.poison
    lost := tfilter (fun p => keep (16 * p)) s1.lost
    stks := tmap (fun _ t => { t with victims := t.victims.filter (fun v => v.1 != cid) }) s1.stks }

/-- A hart ends under R311: it arrives at every later barrier, and its band and core settle. With the last hart of a removed
context the context has ended, and its records and its unbacked lines go (R368, R401, R405). -/
def endHart (s : State) (h : Nat) : State :=
  let x := s.hart h
  let s1 := settleCore (settleBand (clearHart s h) x.band) (coreOf h)
  if s1.usesCtx x.cid then s1 else dropUnbacked (dropRecords s1 x.cid) x.cid

/-- The hart of a removed context with the values of R71 and R398: grants zero, queue empty, steered to EXITV at S. -/
def Hart.removed (x : Hart) (code : Nat) (va exitv : W) : Hart :=
  { x with cur := 0, next := 0, vl := 0, rcl := false, v := [], k := [], vq := [], wait := none, streams := [],
           image := none, await := none, tidx := 0,
           tcause := wd (2 ^ 63 + code), tval := va, tstat := setFld x.tstat 11 1 0, popped := [], sv := [], vs := [],
           hstat := setFld (setFld (setFld x.hstat 0 1 0) 5 1 0) 1 2 1, pc := exitv, nh := 0 }

/-- The nodes of a removed context that no hart runs reach the states of R71, with no virtual address and ENG 0 in the fault
word of every kind (R415, log 93). A suspended copy node leaves its timeline in the error state (R71, R315). -/
def removeNodes (cid : Nat) (fw : W) (s : State) (n : Nat) : State :=
  match s.node? n with
  | none => s
  | some x =>
    if x.cid ≠ cid then s
    else match x.st with
      | .waiting => s.setNode n { x with st := .cancelled }
      | .ready =>
        let s1 := s.setNode n { x with st := .failed, fword := fw }
        match x.cursor with
        | none => s1
        | some c => postError s1 (tlKey cid c.core 3)
      | .suspended => s.setNode n { x with st := .failed, fword := fw }
      | .running =>
        match x.kind with
        | .band => s.setNode n { x with fword := fw }
        | .veld => s.setNode n { x with st := .failed, fword := fw }
        | .copy => s.setNode n { x with st := .failed, fword := fw }
      | .done => s
      | .failed => s
      | .cancelled => s

/-- The save slots of a removed context's suspended bands are freed, whose bytes stand (R18), and its bands stop being
pre-empted (R70, R71). What lane reclaiming took from one stays with the incoming band (R66). -/
def removeBand (cid : Nat) (s : State) (bi : Nat) : State :=
  match s.band? bi with
  | none => s
  | some b =>
    if b.cid ≠ cid then s
    else
      let ph := match b.phase with
        | .suspended => .ended
        | .restoring => .running
        | .pending => .ended
        | .stopping => .running
        | .saving => .running
        | .running => .running
        | .ended => .ended
      s.setBand bi { b with phase := ph, slots := [], reserved := 0, markers := [], reclaimAt := none }

/-- Some hart of a context stands on a halted stack: a removal of the context waits (R398, R403). -/
def haltedContext (s : State) (cid : Nat) : Bool := (s.ctxHarts cid).any (fun h => (s.stack (stackOf h)).halted)

/-- Removal of a context with a fatal code (R71, R398). With EXITV = 0 its harts stop. A context without live harts has ended
(R401). -/
def removeNow (s : State) (cid code : Nat) (va : W) : State :=
  let exitv := pcField (s.ctx cid).exitv
  let fw := faultWord code 0 0
  let hs := s.ctxHarts cid
  let s1 := hs.foldl (fun s h => dropSeqs h s) s
  let s2 := (upto 0 64).foldl (fun s c => dropCopies cid c s) s1
  let s3 := (upto 0 16).foldl (fun s t => dropVeld cid t s) s2
  let s4 := dropUnbacked s3 cid
  let s5 := (tkeys s4.nodes).foldl (removeNodes cid fw) s4
  let s6 := (tkeys s5.bands).foldl (removeBand cid) s5
  let s7 := { s6.modCtx cid (fun c => { c with installed := false, removing := none }) with
              cutAt := if s6.cutAt.any (fun c => hs.contains c.1) then none else s6.cutAt }
  if exitv = 0 ∨ hs.isEmpty then
    dropRecords (hs.foldl (fun s h => endHart s h) s7) cid
  else hs.foldl (fun s h => s.modHart h (fun x => x.removed code va exitv)) s7

/-- Removal of a context, which waits where one of its bands stands on a halted stack; the first cause counts, and until
then none of its harts runs (R71, R398, R403). -/
def removeContext (s : State) (cid code : Nat) (va : W) : State :=
  if haltedContext s cid then
    s.modCtx cid (fun c => { c with removing := some (c.removing.getD (code, va)) })
  else removeNow s cid code va

/-- The removals that waited for a halt act once no halted stack holds a band of their context (R403). -/
def resumeRemovals (s : State) : State :=
  (tkeys s.ctxs).foldl (fun s cid => match (s.ctx cid).removing with
    | none => s
    | some r => if haltedContext s cid then s else removeNow s cid r.1 r.2) s

end Sys2Proof.Machine
end

