-- ==== Sys2Proof/Machine/Ops.lean ====
section
/-! DEFINITION. The shared operations of execution: how an instruction ends, the program counter (R84, R106), taking a
trap (R387, R388), returning from one (R176, R389), engine stops (R290), and the wrappers that turn a body into the
outcome of a step for the agent that runs it. -/
namespace Sys2Proof.Machine

/-- How a body ends short of its end: a precise trap with its cause, TVAL and element; a stall, in which the agent
stays at the instruction; the drain deadline's cut at an element (R67); a fatal removal; or a fault of the model. -/
inductive Stop where
  | trap (code : Nat) (tval : W) (idx : Nat)
  | stall
  | cut (idx : Nat)
  | fatal (code : Nat) (va : W)
  | fault (f : Fault)
deriving DecidableEq, Repr

/-- The body of an instruction: it changes the state and may end short. What it changed before that stays. -/
abbrev X := EStateM Stop State

/-- The outcome type of a step. -/
abbrev Out := Host.Outcome State Fault Refusal

/-- Trap of R106. -/
def trap {α : Type} (code : Nat) (tval : W) : X α := throw (.trap code tval 0)
/-- ElemTrap of R106: elements below `i` keep their results. -/
def elemTrap {α : Type} (i code : Nat) (tval : W) : X α := throw (.trap code tval i)
/-- The agent stays at the instruction (R59). -/
def stall {α : Type} : X α := throw .stall

/-- Cause codes of R386. -/
def cILL : Nat := 0x01
/-- VILL (R386). -/
def cVILL : Nat := 0x02
/-- Translation fault (R386). -/
def cXLATE : Nat := 0x04
/-- Permission fault (R386). -/
def cPERM : Nat := 0x05
/-- Misalignment (R386). -/
def cMISALIGN : Nat := 0x06
/-- Capacity fault (R386). -/
def cCAPACITY : Nat := 0x07
/-- Poison on load (R386). -/
def cPOISON : Nat := 0x08
/-- Barrier overflow (R386). -/
def cBARRIER : Nat := 0x09
/-- Remote refusal (R386). -/
def cREMOTE : Nat := 0x0A
/-- Key mismatch (R386). -/
def cKEY : Nat := 0x0B
/-- Line format (R386). -/
def cLINE : Nat := 0x0C
/-- Lock time-out (R386). -/
def cLOCK : Nat := 0x0E
/-- Non-monotone store (R386). -/
def cMONO : Nat := 0x0F
/-- Bad status (R386). -/
def cBADSTAT : Nat := 0x10
/-- Environment call from N (R386). -/
def cECALLN : Nat := 0x11
/-- Environment call from S (R386). -/
def cECALLS : Nat := 0x12
/-- Breakpoint (R386). -/
def cBRKPT : Nat := 0x13
/-- Launch fault (R386). -/
def cLAUNCH : Nat := 0x14
/-- Engine fault (R386). -/
def cENGINE : Nat := 0x15
/-- Interrupt (R386). -/
def cINT : Nat := 0x20

/-- LineOf of R106. -/
def lineOf (pc : W) : W := wd (pc.toNat / 64 * 64)
/-- SlotOf of R106. -/
def slotOf (pc : W) : Nat := pc.toNat / 2 % 32
/-- NextPC of R106: the next slot, or slot 1 of the next line (R84). -/
def nextPC (pc : W) (nh : Nat) : W := if slotOf pc < nh then pc + 2 else lineOf pc + 66
/-- Target of R106 (R85). -/
def target (pc : W) (t : BitVec 26) : W :=
  lineOf pc + sext 20 (t.toNat / 32) * 64 + wd (t.toNat % 32 * 2)

/-- The hart whose registers an agent uses: a sequencer uses its owner's (R288). -/
def agentHart (s : State) : Nat :=
  match s.agent with
  | .hart h => h
  | .queue h => h
  | .mseq c => (s.core c).mseq.owner
  | .cseq c => (s.core c).cseq.owner

/-- The package core on which an agent runs. -/
def agentCore (s : State) : Nat :=
  match s.agent with
  | .hart h => coreOf h
  | .queue h => coreOf h
  | .mseq c => c
  | .cseq c => c

/-- The number that hart `h` gives its next vector instruction after this step (log 62). -/
def State.nextNo (s : State) (h : Nat) : Nat := s.ticks * 512 + h

/-- Vector-queue instructions that the model lets wait in the queue; those that write a scalar register, SETVL and
VWAIT execute as they issue (R191, R195, log 22). -/
def deferrable (i : Instr) : Bool :=
  match encode i with
  | none => false
  | some e =>
    decide (0x62 ≤ e.op ∧ e.op ≤ 0x8E) || decide (0x98 ≤ e.op ∧ e.op ≤ 0x9D) || decide (e.op = 0x9F) ||
      decide (0xA0 ≤ e.op ∧ e.op ≤ 0xA3) || decide (e.op = 0xA6) || decide (0xA8 ≤ e.op ∧ e.op ≤ 0xB5) ||
      decide (0xC0 ≤ e.op ∧ e.op ≤ 0xC9) || decide (e.op = 0xE5)

/-- The agent is a sequencer. -/
def Agent.isSeq : Agent → Bool
  | .hart _ => false
  | .queue _ => false
  | .mseq _ => true
  | .cseq _ => true

/-- The entry that an instruction of a hart makes in its queue or image (R191, R388). -/
def entryOf (x : Hart) (i : Instr) : VEntry :=
  { pc := x.pc, instr := i, no := x.vecNo, sv := x.sv, start := none, s := x.s, vtype := x.vtype, vl := x.vl, mfc := x.mfc,
    fxrm := x.fxrm }

/-- An instruction of a hart goes to the end of its queue: it takes its scalar operands, VTYPE, VL, MFC and FXRM now
(R110, R191). -/
def enqueue (s : State) (h : Nat) (i : Instr) : State :=
  s.modHart h (fun x => { x with vq := x.vq ++ [entryOf x i], pc := nextPC x.pc x.nh, vecNo := s.nextNo h })

/-- The level at which a cause is handled: R386, or M for any trap taken at M (R387). -/
def trapTarget (x : Hart) (code : Nat) : Level :=
  if x.level = .m then .m else if code = cECALLS then .m else .s

/-- TSTAT as a trap saves it (R385, R387). -/
def savedStat (x : Hart) : W :=
  wd (fld x.vtype 63 1 * 2 ^ 63 + fld x.vl 0 18 * 2 ^ 30 + fld x.vtype 0 8 * 2 ^ 22 + fld x.hstat 8 1 * 2 ^ 8 +
    fld x.hstat 0 1 * 8 + fld x.hstat 1 2 * 2)

/-- The entry of TakeTrap that saves the interrupted position (R387, R388): `pc` is the saved position, `img` the
trap queue image and the scalar resume PC where one is built. -/
def Hart.enter (x : Hart) (tgt : Level) (vec : W) (cause tval pc : W) (idx : Nat)
    (img : Option (List VEntry × W)) : Hart :=
  let m : MFrame := if tgt = .m then
      { hstat := x.hstat, tcause := x.tcause, tval := x.tval, tepc := x.tepc, tstat := x.tstat, tidx := x.tidx,
        valid := true }
    else x.mframe
  let st := savedStat x
  { x with
    mframe := m
    tstat := match img with
      | none => st
      | some p => setFld (setFld st 11 1 1) 12 4 p.1.length
    image := match img with
      | none => if tgt = .m then x.image else none
      | some p => some (p.1.map (fun e => { e with start := none }))
    resumePc := match img with
      | none => x.resumePc
      | some p => p.2
    vq := match img with
      | none => x.vq
      | some _ => []
    tepc := wd (fld pc 0 57), tcause := cause, tval := tval, tidx := wd idx
    hstat := setFld (setFld x.hstat 0 1 1) 1 2 tgt.code
    pc := vec, nh := 0, wait := none }

/-- TakeTrap of R387 for a hart: `pc` is the position of the trapping instruction, or the next one for an
asynchronous or imprecise event; `img` the queue image of R388. An element trap that ends the context here keeps the elements
below it, as every other one does (R106, log 100). -/
def takeTrap (s : State) (h code : Nat) (tval : W) (async imp : Bool) (idx : Nat) (pc : W)
    (img : Option (List VEntry × W)) : State :=
  let x := s.hart h
  let tgt := trapTarget x code
  let vec := if tgt = .m then x.mentry else pcField (s.ctx x.cid).tvec
  if vec = 0 then removeContext s x.cid 0x33 0
  else if x.inHandler && decide (tgt = x.level) then
    if bit x.hstat 5 then removeContext s x.cid 0x32 0
    else s.setHart h { x with hstat := setFld x.hstat 5 1 1, tcause := wd code, tval := tval, pc := vec, nh := 0,
                              vq := [], wait := none, vecNo := s.nextNo h }
  else
    let cause := wd (b01 async * 2 ^ 63 + b01 imp * 2 ^ 62 + code)
    let epc := if code = cECALLN ∨ code = cECALLS then nextPC pc x.nh else pc
    s.setHart h { x.enter tgt vec cause tval epc idx img with vecNo := s.nextNo h }

/-- The checks of TSTAT before a return (R176, R389): the reserved bits, PLVL, and the queue image it names. -/
def statBad (x : Hart) : Bool :=
  let t := x.tstat
  fld t 48 15 != 0 || fld t 16 6 != 0 || fld t 9 2 != 0 || fld t 4 4 != 0 || fld t 0 1 != 0 ||
    fld t 1 2 == 2 || decide (x.level.code < fld t 1 2) ||
    (bit t 11 && (fld t 12 4 == 0 || decide (8 < fld t 12 4) ||
      match x.image with
      | none => true
      | some l => decide (l.length < fld t 12 4)))

/-- The entries that a return reissues; the first starts at `start` where TIDX no longer names that element (R389). -/
def reissued (l : List VEntry) (start : Option Nat) : List VEntry :=
  match l with
  | [] => []
  | e :: r => { e with start := start } :: r

/-- The popped strips after a return (R222, R229): those of the instructions that are reissued or still held, and those of
the instruction at the resume point, which takes the hart's next number; a return inside a handler drops none. -/
def Hart.keepPopped (x : Hart) : Hart :=
  let held := x.vq ++ x.image.getD []
  let keep (p : Popped) : Bool := x.inHandler || p.pc == x.pc || held.any (fun e => e.no == p.no)
  let name (p : Popped) : Popped := if p.pc = x.pc && x.vq.isEmpty then { p with no := x.vecNo } else p
  { x with popped := (x.popped.filter keep).map name }

/-- HSTAT with its reserved bits zero; LVL is never 0b10, which reads as machine level (R6, R384, log 24). -/
def hstatBits (v : W) : W :=
  wd (fld v 8 2 * 2 ^ 8 + fld v 4 2 * 2 ^ 4 + (if fld v 1 2 = 2 then 3 else fld v 1 2) * 2 + fld v 0 1)

/-- TCAUSE with its reserved bits zero (R6, R385). -/
def tcauseBits (v : W) : W := wd (fld v 62 2 * 2 ^ 62 + fld v 0 8)

/-- The return of R389, for a TSTAT that passes its checks. A VT field whose SEW or LMUL code R87 does not list is
restored as it stands, with a SEW of 8 · 2^code bits or an LMUL of 2^code (log 64). -/
def Hart.tret (x : Hart) : Hart :=
  let t := x.tstat
  let qi := bit t 11
  let ph := fld t 3 1
  let hs0 := setFld (setFld (setFld x.hstat 0 1 ph) 1 2 (fld t 1 2)) 8 1 (fld t 8 1)
  let hs := if ph = 0 then setFld hs0 5 1 0 else hs0
  let vt := wd (fld t 63 1 * 2 ^ 63 + fld t 22 8)
  let vl := wd (fld t 30 18)
  let atM := decide (x.level = .m) && x.mframe.valid
  let y := { x with
    hstat := hs, vtype := vt, vl := vl, nh := 0
    pc := if qi then x.resumePc else pcField x.tepc
    vq := match qi, x.image with
      | true, some l => reissued (l.take (fld t 12 4)) (if atM then some (fld x.tidx 0 18) else none)
      | true, none => x.vq
      | false, _ => x.vq
    image := if qi then none else x.image
    tstat := setFld t 11 1 0 }
  (if atM then
    -- HSTAT is one of the frame's six registers: the fields that R389 restores from TSTAT equal those it holds
    { y with hstat := hstatBits x.mframe.hstat, tcause := tcauseBits x.mframe.tcause, tval := x.mframe.tval
             tepc := wd (fld x.mframe.tepc 0 57), tstat := x.mframe.tstat, tidx := wd (fld x.mframe.tidx 0 18)
             mframe := { x.mframe with valid := false } }
  else y).keepPopped

/-- An engine stop (R290): the sequencer stops at the instruction, its fault word, address and PC are recorded and
its timeline takes the error state. -/
def engineStop (s : State) (matrix : Bool) (core cause idx : Nat) (va : W) : State :=
  let q := (s.core core).seq matrix
  let fw := faultWord cause (if matrix then 0 else 1) idx
  let s1 := s.modCore core (fun c => c.modSeq matrix (fun q =>
    { q with phase := .stopped, fword := fw, fva := va, fpc := q.pc, tidx := wd idx }))
  s1.modTl (tlKey (s.hart q.owner).cid core (if matrix then 1 else 0))
    (fun t => { t with err := some { fword := fw, va := va, pc := q.pc } })

/-- The address that an engine stop records: the trap's TVAL where that is an address, unstated otherwise (R290,
log 18). -/
def stopVa (s : State) (code : Nat) (tval : W) : W :=
  if 4 ≤ code ∧ code ≤ 9 then tval else if code = cLINE then tval else Config.unstated s.ticks 0

/-- A hart makes progress (R399). -/
def retire (s : State) (h : Nat) : State := s.modHart h (fun x => { x with retiredAt := s.clock })

/-- A vector instruction has completed: TIDX = 0 (R42, R186), and the strips it popped are done with (R222). -/
def Hart.vecDone (x : Hart) (no : Nat) : Hart :=
  { x with tidx := 0, popped := x.popped.filter (fun p => p.no != no) }

/-- Moves an agent past its instruction: a hart and a sequencer to NextPC, a vector queue to its next entry. -/
def advance (s : State) (vec : Bool) : State :=
  match s.agent with
  | .hart h => s.modHart h (fun x =>
      let y := { x with pc := nextPC x.pc x.nh, wait := none, retiredAt := s.clock }
      if vec then { y.vecDone x.vecNo with vecNo := s.nextNo h } else y)
  | .queue h => s.modHart h (fun x => { x.vecDone ((x.vq.head?.map (·.no)).getD 0) with
      vq := x.vq.tail, retiredAt := s.clock
      wait := if x.wait.any (fun w => x.vq.any (fun e => e.instr == w.what)) then none else x.wait })
  | .mseq c => s.modCore c (fun k => { k with mseq := { k.mseq with pc := nextPC k.mseq.pc k.mseq.nh, tidx := 0 } })
  | .cseq c => s.modCore c (fun k => { k with cseq := { k.cseq with pc := nextPC k.cseq.pc k.cseq.nh, tidx := 0 } })

/-- The request that the hart waits for. -/
def awaited (s : State) (h : Nat) : Option FReq :=
  match (s.hart h).await with
  | none => none
  | some r => (s.reqs.find? (fun e => e.1 == r)).map (·.2)

/-- The answer that the hart waits for has come and is a trap of its instruction: poisoned data, or a refused atomic (R163,
R213). -/
def answerTraps (s : State) (h : Nat) : Bool :=
  match awaited s h with
  | none => false
  | some q => decide (q.phase = .done) && (q.resp.poison || q.resp.deny)

/-- The hart gives up the access it has posted: its instruction has not executed, and a trap of an earlier instruction is
taken instead of its own (R388). -/
def forgo (s : State) (h : Nat) : State :=
  match (s.hart h).await with
  | none => s
  | some r => { s with reqs := tdel s.reqs r }.modHart h (fun x => { x with await := none })

/-- A precise trap of the instruction an agent runs: TakeTrap for a hart's scalar instruction, with the queue image
for a vector-queue instruction (R388), an engine stop for a sequencer (R290). A scalar trap waits until the vector
queue has completed (R388), as `trapWaits` says. -/
def raise (s : State) (i : Instr) (vec : Bool) (code : Nat) (tval : W) (idx : Nat) : State :=
  match s.agent with
  | .hart h =>
    let x := s.hart h
    if vec then takeTrap s h code tval false false idx x.pc (some ([entryOf x i], nextPC x.pc x.nh))
    else if x.vq.isEmpty then takeTrap s h code tval false false idx x.pc none
    else s
  | .queue h =>
    let x := s.hart h
    let pc := match x.vq with
      | [] => x.pc
      | e :: _ => e.pc
    takeTrap (forgo s h) h code tval false false idx pc (some (x.vq, x.pc))
  | .mseq c => engineStop s true c code idx (stopVa s code tval)
  | .cseq c => engineStop s false c code idx (stopVa s code tval)

/-- An instruction that the drain deadline cuts stays at the head of its queue with TIDX at the cut (R42, R67). -/
def cutStay (s : State) (n : Nat) : State :=
  { s.modHart (agentHart s) (fun x => { x with tidx := wd n, vq := reissued x.vq none }) with cutAt := none }

/-- A scalar instruction's trap waits for the vector queue, so that the instruction has had no effect (R388). A trap of the
queue waits for the answer of the scalar access that the hart has posted ahead of it, so that the scalar resume PC stands
behind that access, which acts once (R184, R391); an answer that traps is no execution, and the queue's trap is taken
instead (R388). -/
def trapWaits (s : State) (vec : Bool) : Bool :=
  match s.agent with
  | .hart h => !vec && !(s.hart h).vq.isEmpty
  | .queue h => (s.hart h).await.isSome && !answerTraps s h
  | .mseq _ => false
  | .cseq _ => false

/-- A hart waits in SPTSW. -/
def Hart.inSptsw (x : Hart) : Bool :=
  match x.wait with
  | none => false
  | some w => match w.what with
    | .sptsw _ _ => true
    | _ => false

/-- Another hart of the context waits in SPTSW (R180). -/
def sptWaits (s : State) (h : Nat) : Bool := (s.ctxHarts (s.hart h).cid).any (fun g => g != h && (s.hart g).inSptsw)

/-- A vector instruction of a hart that has begun and stalls waits in the hart's queue, whose head keeps its element (R42,
R404). None joins the queue while SPTSW waits for it to empty: one that stalls then has performed nothing and begins again
(R180). -/
def stalled (s0 s : State) (i : Instr) (vec : Bool) : State :=
  match s.agent with
  | .hart h => if vec && deferrable i && decide ((s.hart h).tidx ≠ 0) then (if sptWaits s h then s0 else enqueue s h i) else s
  | .queue _ => s
  | .mseq _ => s
  | .cseq _ => s

/-- The outcome of a body that began in `s0`: completion with what `post` adds, or what its stop means. -/
def finish (i : Instr) (vec : Bool) (post : State → State) (s0 : State) (r : EStateM.Result Stop State Unit) : Out :=
  match r with
  | .ok _ s => .next (post s)
  | .error (.trap code tval idx) s => .next (if trapWaits s0 vec then s0 else raise s i vec code tval idx)
  | .error .stall s => .next (stalled s0 s i vec)
  | .error (.cut n) s => .next (cutStay s n)
  | .error (.fatal code va) s => .next (removeContext s (s.hart (agentHart s)).cid code va)
  | .error (.fault f) _ => .fault f

/-- An instruction outside the class of a sequencer stops it with cause class (R97, R290). -/
def classStop (s : State) : State :=
  match s.agent with
  | .hart _ => s
  | .queue _ => s
  | .mseq c => engineStop s true c 0x03 0 (Config.unstated s.ticks 0)
  | .cseq c => engineStop s false c 0x03 0 (Config.unstated s.ticks 0)

/-- A state with the accesses that another has waiting for gaps of computing banks, beside its own (R337). -/
def keepAsks (s t : State) : State :=
  s.stks.foldl (fun u e => match e.2.veld.run, (t.stack e.1).veld.run with
    | some r, some q => u.modVeld e.1 (fun v => { v with run := some { r with
        asks := r.asks ++ q.asks.filter (fun a => !r.asks.any (fun b => b.who == a.who && b.row == a.row)) } })
    | _, _ => u) s

/-- The outcome of an instruction that takes effect whole or, where it stalls, not at all (R272). -/
def finishWhole (i : Instr) (vec : Bool) (post : State → State) (s0 : State) (r : EStateM.Result Stop State Unit) : Out :=
  match r with
  | .error .stall t => .next (keepAsks s0 t)
  | r => finish i vec post s0 r

/-- A scalar instruction of a hart that moves the program counter itself. -/
def jumpX (i : Instr) (body : X Unit) (s : State) : Out :=
  if s.agent.isSeq then .next (classStop s) else finish i false (fun t => retire t (agentHart t)) s (body.run s)

/-- A scalar instruction of a hart. -/
def scalarX (i : Instr) (body : X Unit) (s : State) : Out :=
  if s.agent.isSeq then .next (classStop s) else finish i false (fun t => advance t false) s (body.run s)

/-- A sync instruction, which a hart and both sequencers execute (R97). -/
def syncX (i : Instr) (body : X Unit) (s : State) : Out :=
  finish i false (fun t => advance t false) s (body.run s)

/-- A copy-class instruction: a hart or the copy sequencer executes it (R97). -/
def copyX (i : Instr) (body : X Unit) (s : State) : Out :=
  match s.agent with
  | .mseq _ => .next (classStop s)
  | .cseq _ => finish i false (fun t => advance t false) s (body.run s)
  | .hart _ => finish i false (fun t => advance t false) s (body.run s)
  | .queue _ => finish i false (fun t => advance t false) s (body.run s)

/-- The matrix sequencer begins a matrix instruction: its number on TLC1, kept by one that failed or stalled (R260,
R287). -/
def acceptMatrix (s : State) : State :=
  match s.agent with
  | .mseq c => s.modTl (tlKey (s.hart (s.core c).mseq.owner).cid c 1) (fun t => if t.acc = t.cnt then t.accept else t)
  | .cseq _ => s
  | .hart _ => s
  | .queue _ => s

/-- A matrix instruction of the matrix sequencer completes under its number on TLC1 (R260). -/
def countMatrix (s : State) : State :=
  match s.agent with
  | .mseq c =>
    retire (s.modTl (tlKey (s.hart (s.core c).mseq.owner).cid c 1) (fun t => t.complete t.acc)) (s.core c).mseq.owner
  | .cseq _ => s
  | .hart _ => s
  | .queue _ => s

/-- A vector-queue instruction issued in a handler that holds an image takes the illegal-instruction trap (R390). -/
def imageBars (s : State) : Bool :=
  match s.agent with
  | .hart h => (s.hart h).inHandler && bit (s.hart h).tstat 11
  | .queue _ => false
  | .mseq _ => false
  | .cseq _ => false

/-- TVAL of every illegal-instruction trap for which no rule names another: the head and tail of the encoding (R95, R140). -/
def illVal (i : Instr) : W :=
  match encode i with
  | none => 0
  | some e => wd (e.head + e.tail * 65536)

/-- A vector instruction: a hart's queue executes it (R195, R390). -/
def vecX (i : Instr) (body : X Unit) (s : State) : Out :=
  if s.agent.isSeq then .next (classStop s)
  else if imageBars s then .next (raise s i false cILL (illVal i) 0)
  else finish i true (fun t => advance t true) s (body.run s)

/-- SETVL and SETVLI: a hart's instruction at its place in the vector queue, whose only traps are those of its fetch and
decoding (R195). -/
def setX (i : Instr) (body : X Unit) (s : State) : Out :=
  if s.agent.isSeq then .next (classStop s) else finish i true (fun t => advance t true) s (body.run s)

/-- The core's matrix engine serves another context than the hart's (R271). -/
def matrixHeld (s : State) : Bool :=
  match s.agent with
  | .mseq _ => false
  | .cseq _ => false
  | .hart h => (s.core (coreOf h)).resident != some (s.hart h).cid
  | .queue h => (s.core (coreOf h)).resident != some (s.hart h).cid

/-- A matrix-class instruction: a hart's queue or the matrix sequencer executes it (R97, R271, R273), the engine one at a
time and each whole (R272): one that stalls begins again. -/
def matrixX (i : Instr) (body : X Unit) (s : State) : Out :=
  match s.agent with
  | .cseq _ => .next (classStop s)
  | .mseq _ => finishWhole i true (fun t => advance (countMatrix t) true) (acceptMatrix s) (body.run (acceptMatrix s))
  | .hart _ =>
    if imageBars s then .next (raise s i false cILL (illVal i) 0)
    else if matrixHeld s then .next s
    else finishWhole i true (fun t => advance t true) s (body.run s)
  | .queue _ =>
    if matrixHeld s then .next s
    else finishWhole i true (fun t => advance t true) s (body.run s)

/-- A scalar instruction that only changes its hart: it moves on past itself. -/
def onHart (s : State) (f : Hart → Hart) : Out :=
  match s.agent with
  | .hart h => .next (advance (s.modHart h f) false)
  | .queue h => .next (advance (s.modHart h f) false)
  | .mseq _ => .next (classStop s)
  | .cseq _ => .next (classStop s)

/-- The hart number of the agent. -/
def me : X Nat := do return agentHart (← get)
/-- The hart of the agent. -/
def myHart : X Hart := do
  let s ← get
  return s.hart (agentHart s)
/-- Changes the hart of the agent. -/
def onMe (f : Hart → Hart) : X Unit := modify (fun s => s.modHart (agentHart s) f)
/-- The package core of the agent. -/
def myCore : X Nat := do return agentCore (← get)
/-- The context of the agent. -/
def myCid : X Nat := do return (← myHart).cid

/-- The scalar registers that an agent reads: the captured ones of a queue entry, a sequencer's own copy (R191,
R288). -/
def agentRegs (s : State) : Tab W :=
  match s.agent with
  | .hart h => (s.hart h).s
  | .queue h =>
    match (s.hart h).vq with
    | [] => (s.hart h).s
    | e :: _ => e.s
  | .mseq c => (s.core c).mseq.s
  | .cseq c => (s.core c).cseq.s

/-- S(n) of R106 for the agent. -/
def rd (n : SReg) : X W := do return rdS (agentRegs (← get)) n.val

/-- SetS of R106 for the agent: only TLWAIT and TLREAD write a sequencer's copy (R288). -/
def wr (n : SReg) (x : W) : X Unit := modify (fun s =>
  match s.agent with
  | .hart h => s.modHart h (fun y => y.wr n x)
  | .queue h => s.modHart h (fun y => y.wr n x)
  | .mseq c => s.modCore c (fun k => { k with mseq := { k.mseq with s := wrS k.mseq.s n.val x } })
  | .cseq c => s.modCore c (fun k => { k with cseq := { k.cseq with s := wrS k.cseq.s n.val x } }))

/-- ORs a set of flags into FFLAGS and SATF of the hart or the sequencer (R110). -/
def setFlags (f : Nat) : X Unit :=
  if f = 0 then pure ()
  else modify (fun s =>
    match s.agent with
    | .hart h => s.modHart h (fun y => { y with fflags := orFflags y.fflags f, satf := orSatf y.satf f })
    | .queue h => s.modHart h (fun y => { y with fflags := orFflags y.fflags f, satf := orSatf y.satf f })
    | .mseq c => s.modCore c (fun k => { k with mseq :=
        { k.mseq with fflags := orFflags k.mseq.fflags f, satf := orSatf k.mseq.satf f } })
    | .cseq c => s.modCore c (fun k => { k with cseq :=
        { k.cseq with fflags := orFflags k.cseq.fflags f, satf := orSatf k.cseq.satf f } }))

/-- TIDX of the hart or the sequencer (R42). -/
def getTidx : X Nat := do
  let s ← get
  return match s.agent with
    | .hart h => fld (s.hart h).tidx 0 18
    | .queue h => (((s.hart h).vq.head?.bind (·.start))).getD (fld (s.hart h).tidx 0 18)
    | .mseq c => fld (s.core c).mseq.tidx 0 18
    | .cseq c => fld (s.core c).cseq.tidx 0 18

/-- Runs `f` on lo, lo + 1, …, `n` times. -/
def eachFrom (f : Nat → X Unit) : Nat → Nat → X Unit
  | _, 0 => pure ()
  | lo, n + 1 => do f lo; eachFrom f (lo + 1) n

/-- Runs `f` on each element of a list in order. -/
def eachOf {α : Type} (f : α → X Unit) : List α → X Unit
  | [] => pure ()
  | a :: r => do f a; eachOf f r

/-- The vector queue of the hart has completed; otherwise the hart waits (R110, R388). -/
def needQueue : X Unit := do
  let s ← get
  match s.agent with
  | .hart h => if (s.hart h).vq.isEmpty then pure () else stall
  | .queue _ => pure ()
  | .mseq _ => pure ()
  | .cseq _ => pure ()

/-- The illegal-instruction trap of an instruction (R95). -/
def illegal {α : Type} (i : Instr) : X α := trap cILL (illVal i)

end Sys2Proof.Machine
end

