-- ==== Sys2Proof/Machine/Translate.lean ====
section
/-! DEFINITION. Translation (R241 to R246), region descriptors (R247), outbound windows (R408), link-down phases
(R253), and the precise checks of an access before it reaches a home. -/
namespace Sys2Proof.Machine

/-- The access of a translation: READ, WRITE or EXEC of R106, and an atomic. -/
inductive AKind where
  | read | write | exec | amo
deriving DecidableEq, Repr

/-- An access that changes its bytes. -/
def AKind.writes : AKind → Bool
  | .read => false
  | .write => true
  | .exec => false
  | .amo => true

/-- Who makes an access: its context, stack and level, and its number among the writers that R262 tells apart: a hart
by its number, a matrix sequencer as 512 + core, a copy sequencer as 576 + core, any other agent as 640. -/
structure Rq where
  cid : Nat
  stack : Nat
  lvl : Level
  who : Nat
deriving DecidableEq, Repr

/-- A window covers a physical address: base and limit are both inside it (R408). -/
def Win.covers (w : Win) (pa : Nat) : Bool := w.valid && decide (w.base ≤ pa / 4096) && decide (pa / 4096 ≤ w.limit)

/-- Port `p` of the package. -/
def State.port (s : State) (p : Nat) : Port := tget Port.reset s.ports p
/-- Changes port `p`. -/
def State.modPort (s : State) (p : Nat) (f : Port → Port) : State :=
  { s with ports := tput Port.reset s.ports p (f (s.port p)) }

/-- The windows of a port, lowest number first. -/
def Port.windows (p : Port) : List Win := p.wins.map (·.2)

/-- The port that serves a physical address: the lowest-numbered with a window that covers it (R408). -/
def servingPort (s : State) (pa : Nat) : Option Nat :=
  (upto 0 8).find? (fun p => (s.port p).windows.any (fun w => w.covers pa))

/-- A window permits an access of a kind. -/
def Win.permits (w : Win) (k : AKind) : Bool :=
  match k with
  | .read => w.r
  | .exec => w.r
  | .write => w.w
  | .amo => w.r && w.w

/-- Some covering window of the serving port permits the access (R408). -/
def extPermits (s : State) (pa : Nat) (k : AKind) : Bool :=
  match servingPort s pa with
  | none => false
  | some p => (s.port p).windows.any (fun w => w.covers pa && w.permits k)

/-- The address is host memory: the lowest-numbered window that covers it on its port is of kind host (R251, R408). -/
def extHost (s : State) (pa : Nat) : Bool :=
  match servingPort s pa with
  | none => false
  | some p =>
    match (s.port p).windows.find? (fun w => w.covers pa) with
    | none => false
    | some w => decide (w.kind = .host)

/-- The phase of R253 in which an access meets a physical address: 0 normal, 1 until every stack has dropped its
translations, 2 after that. -/
def linkPhase (s : State) (pa : Nat) : Nat :=
  match servingPort s pa with
  | none => 0
  | some p => if (s.port p).down then (if (s.port p).dropping.isEmpty then 2 else 1) else 0

/-- The canonical address of a byte that the device itself reads or writes at a physical address, as in a table, a
record or a buffer; none where nothing is stored, in the rows that R18 withholds, behind no window that permits the
access (R408) or in a range whose link is down (R253, log 9). -/
def rawAddr (s : State) (k : AKind) (pa : Nat) : Option Nat :=
  match placeOf s.sdp pa with
  | .dram lin _ => if withheld s.sdp lin then none else some lin
  | .spad c o => some (spadAddr c o)
  | .col t o => if k.writes then none else some (colAddr t o)
  | .ext p => if extPermits s p k && linkPhase s p == 0 then some p else none
  | .hole => none
  | .vreg _ _ => none
  | .tile _ _ => none
  | .latA _ _ => none
  | .latB _ _ => none
  | .creg _ _ => none
  | .route _ _ => none

/-- The rows of a subarray operation or lock: subarrays by bank-linear address / 2^20, rows by address / 1,024. -/
def rowIn (subs : List Nat) (rows : List (Nat × Nat)) (lin : Nat) : Bool :=
  subs.contains (lin / 2 ^ 20) || rows.any (fun r => r.1 == lin / 1024 || r.2 == lin / 1024)

/-- A row is locked against an access of a context: by the running operation, or by another context's VRLOCK (R337,
R340). -/
def rowLocked (s : State) (cid lin : Nat) : Bool :=
  let v := (s.stack (linStack lin)).veld
  (match v.run with
    | none => false
    | some r => rowIn r.op.subs r.op.rows lin) ||
  v.locks.any (fun e => e.2.cid != cid && e.2.subs.contains (lin / 2 ^ 20))

/-- A launch, as against a row operation. -/
def VOp.isLaunch (o : VOp) : Bool :=
  match o.kind with
  | .launch => true
  | .zero => false
  | .clone => false

/-- The operation computes in a bank of a layer, given as layer × 64 + bank. -/
def VOp.inBank (o : VOp) (lb : Nat) : Bool :=
  o.subs.any (fun u => u / 64 % 1024 == lb) ||
    o.rows.any (fun p => p.1 / 2 ^ 16 % 1024 == lb || p.2 / 2 ^ 16 % 1024 == lb)

/-- A bank, given as layer × 64 + bank, has executed its last step of the operation (R336, R337): its layer has, or the rows
still to be done do not lie in it. -/
def bankOver (t : Stack) (r : VRun) (lb : Nat) : Bool :=
  if r.op.isLaunch then r.sent && (t.layer (lb / 64)).fifo.isEmpty
  else (r.op.rows.drop r.rowIx).all (fun p => p.1 / 2 ^ 16 % 1024 != lb && p.2 / 2 ^ 16 % 1024 != lb)

/-- The operation has executed its last step in every layer (R335). -/
def runOver (t : Stack) (r : VRun) : Bool :=
  (if r.op.isLaunch then r.sent else decide (r.op.rows.length ≤ r.rowIx)) &&
    (setBitsOf r.op.lmask 16).all (fun l => (t.layer l).fifo.isEmpty)

/-- Steps that the banks of a layer have executed (R331, R336). -/
def stepsOf (t : Stack) (r : VRun) (layer : Nat) : Nat := if r.op.isLaunch then (t.layer layer).steps else r.rowIx

/-- The computing bank of a bank-linear address, as layer × 64 + bank, and the steps before the gap at which it stands;
none before its first step and after its last (R336, R337). -/
def computing (s : State) (lin : Nat) : Option (VRun × Nat × Nat) :=
  let t := s.stack (linStack lin)
  match t.veld.run with
  | none => none
  | some r =>
    let lb := linLayer lin * 64 + linBank lin
    let n := stepsOf t r (linLayer lin)
    if r.op.inBank lb && decide (0 < n) && !bankOver t r lb then some (r, lb, n) else none

/-- The entry is that of an agent's access to the row of an address. -/
def GapAsk.for_ (a : GapAsk) (who lin : Nat) : Bool := a.who == who && a.row == lin / 1024

/-- An access to a computing bank waits until a gap has served it, unless the slices hold its line (R337, log 23). -/
def gapShut (s : State) (who lin : Nat) : Bool :=
  match computing s lin with
  | none => false
  | some (r, _, _) => !(r.asks.any (fun a => a.for_ who lin && a.got)) && !Config.sliceHit s.ticks (lin / 128)

/-- An access begins to wait for a gap of a computing bank, where it does not wait yet (R337). -/
def askGap (who : Nat) (s : State) (lin : Nat) : State :=
  match computing s lin with
  | none => s
  | some (r, lb, n) =>
    if r.asks.any (fun a => a.for_ who lin) then s
    else s.modVeld (linStack lin) (fun v => { v with run := some { r with
      asks := r.asks ++ [{ bank := lb, since := n, who := who, row := lin / 1024, got := false }] } })

/-- An access is performed and waits for a gap no more (R337). -/
def useGap (who : Nat) (s : State) (lin : Nat) : State :=
  match computing s lin with
  | none => s
  | some (r, _, _) => s.modVeld (linStack lin) (fun v => { v with run := some { r with
      asks := r.asks.filter (fun a => !a.for_ who lin) } })

/-- A byte that the device itself reads or writes for a context lies in a locked row, for which the access waits (R263,
R337). -/
def rawLocked (s : State) (cid pa : Nat) : Bool :=
  match placeOf s.sdp pa with
  | .dram lin _ => rowLocked s cid lin
  | .hole => false
  | .spad _ _ => false
  | .vreg _ _ => false
  | .tile _ _ => false
  | .latA _ _ => false
  | .latB _ _ => false
  | .creg _ _ => false
  | .col _ _ => false
  | .route _ _ => false
  | .ext _ => false

/-- Some row may be locked: a Veld operation runs or a VRLOCK is held (R337, R340). -/
def State.veldBusy (s : State) : Bool := s.stks.any (fun e => e.2.veld.run.isSome || !e.2.veld.locks.isEmpty)

/-- Some of `n` bytes from a physical address lies in a locked row; granules of 256 bytes lie in one row (R234). -/
def rangeLocked (s : State) (cid pa n : Nat) : Bool :=
  s.veldBusy && (upto (pa / 256) ((pa + n - 1) / 256 + 1 - pa / 256)).any (fun g => rawLocked s cid (256 * g))

/-- The byte that a device read of a table finds (log 9). -/
def rawByte (s : State) (pa : Nat) : Byte :=
  match rawAddr s .read pa with
  | some a => s.byteAt a
  | none => Config.holeByte pa

/-- `n` bytes that a device read of a table finds, little-endian (R5). -/
def rawNat (s : State) (pa n : Nat) : Nat := leNat ((upto pa n).map (rawByte s))

/-- The size code of a leaf; none where R242 reserves the pair of level and CONT. -/
def leafSize (level cont : Nat) : Option Nat :=
  if level ≤ 1 then (if cont ≤ 3 then some (4 * level + cont) else none)
  else if level = 2 then (if cont ≤ 2 then some (8 + cont) else none)
  else if level = 3 then (if cont = 0 then some 11 else none)
  else none

/-- Bit `i` of a table entry. -/
def pteBit (pte i : Nat) : Bool := pte.testBit i

/-- A table entry that faults whatever its kind (R244). -/
def pteBad (pte : Nat) : Bool :=
  !pteBit pte 0 || (!pteBit pte 1 && pteBit pte 2) || pte / 2 ^ 61 % 8 != 0 || pte / 2 ^ 54 % 16 != 0 ||
    pte / 2 ^ 46 % 256 != 0

/-- A leaf has R or X set (R244). -/
def pteLeaf (pte : Nat) : Bool := pteBit pte 1 || pteBit pte 3

/-- PPN of an entry that names an address below 2^48 (R244). -/
def ptePpn (pte : Nat) : Nat := pte / 2 ^ 10 % 2 ^ 36

/-- A non-leaf entry that faults (R244). -/
def pteBadNode (pte : Nat) : Bool :=
  pte / 2 ^ 58 % 8 != 0 || pteBit pte 7 || pteBit pte 6 || pteBit pte 4

/-- The loop of SvWalk (R244), `n` levels left, the table at `a`: the address of the leaf and its level. -/
def svLeaf (s : State) (va : Nat) : Nat → Nat → Option (Nat × Nat)
  | 0, _ => none
  | n + 1, a =>
    let at_ := a + 8 * (va / 2 ^ (12 + 9 * n) % 512)
    let pte := rawNat s at_ 8
    if pteBad pte then none
    else if pteLeaf pte then some (at_, n)
    else if n = 0 ∨ pteBadNode pte then none
    else svLeaf s va n (ptePpn pte * 4096)

/-- The addresses of the entries that the loop of SvWalk reads, `n` levels left, the table at `a` (R244). -/
def svPath (s : State) (va : Nat) : Nat → Nat → List Nat
  | 0, _ => []
  | n + 1, a =>
    let at_ := a + 8 * (va / 2 ^ (12 + 9 * n) % 512)
    let pte := rawNat s at_ 8
    at_ :: (if pteBad pte || pteLeaf pte || decide (n = 0) || pteBadNode pte then [] else svPath s va n (ptePpn pte * 4096))

/-- The translation that a leaf entry gives to the part of its page at its own level, `back` members below the one
that translates (R242 to R244). -/
def leafEntry (stack va level pte : Nat) (back : Int) : Option TlbE :=
  let lsz := 4096 * 512 ^ level
  if pteBad pte || !pteLeaf pte then none
  else match leafSize level (pte / 2 ^ 58 % 8) with
    | none => none
    | some _ =>
      if ptePpn pte * 4096 % lsz ≠ 0 ∨ !pteBit pte 6 then none
      else some
        { stack := stack, vbase := va / lsz * lsz, size := lsz
          pbase := lowBits 48 ((ptePpn pte * 4096 : Nat) + back * lsz)
          u := pteBit pte 4, x := pteBit pte 3, w := pteBit pte 2, r := pteBit pte 1, d := pteBit pte 7 }

/-- The table entry at an address is a leaf whose CONT is `k`. -/
def contLeaf (s : State) (k a : Nat) : Bool :=
  decide (rawNat s (a + 7) 1 / 4 % 8 = k) && (let pte := rawNat s a 8; !pteBad pte && pteLeaf pte)

/-- The other members of a contiguity group in which the entry at an address lies, as a leaf among its 4^k entries makes
it one (R242, R243): their addresses, and how many members each stands below that entry. A reserved pair of level and CONT
forms no group. -/
def contMembers (s : State) (level a : Nat) : List (Nat × Int) :=
  [1, 2, 3].flatMap fun k =>
    let g := a / 8 % 4 ^ k
    let l := (upto 0 (4 ^ k)).map (fun m => (a - 8 * g + 8 * m, (g : Int) - (m : Int)))
    if (leafSize level k).isSome && l.any (fun e => contLeaf s k e.1) then l.filter (fun e => e.1 != a) else []

/-- The table of a context at which its walks begin (R244). -/
def svRoot (s : State) (cid : Nat) : Nat := fld (s.ctx cid).spt 0 36 * 4096

/-- The members of contiguity groups on the walk for an address, with their levels (R243). -/
def svMembers (s : State) (cid v : Nat) : List (Nat × Nat × Int) :=
  ((svPath s v 5 (svRoot s cid)).zipIdx).flatMap (fun e => (contMembers s (4 - e.2) e.1).map (fun m => (4 - e.2, m)))

/-- The translation by an address's own entry, the one at which its walk ends (R244). -/
def svOwn (s : State) (cid stack v : Nat) : Option TlbE :=
  match svLeaf s v 5 (svRoot s cid) with
  | none => none
  | some (a, level) => leafEntry stack v level (rawNat s a 8) 0

/-- The scalar translation of an address as the tables give it now: by its own entry, or where the members of a contiguity
group in which an entry of its walk lies disagree by any of them, extended over the group (R243, log 10). -/
def svPage (s : State) (cid stack : Nat) (va : W) : Option TlbE :=
  if !vaCanon va then none
  else
    let v := fld va 0 57
    let own := svOwn s cid stack v
    let others := (svMembers s cid v).map (fun m => leafEntry stack v m.1 (rawNat s m.2.1 8) m.2.2)
    if others.all (fun e => e == own) then own
    else (own :: others).getD (Config.contMember s.ticks v % (others.length + 1)) own

/-- The permission table of R244 with the D check before it: none where the access is permitted, else its cause. -/
def svDeny (e : TlbE) (lvl : Level) (k : AKind) : Option Nat :=
  if k.writes && !e.d then some cXLATE
  else
    let ok := match k with
      | .read => e.r
      | .write => e.w
      | .amo => e.w
      | .exec => e.x
    let lv := match lvl with
      | .n => e.u
      | .s => k != .exec || !e.u
      | .m => k != .exec || !e.u
    if ok && lv then none else some cPERM

/-- The physical address, or the cause of the fault. -/
def svAnswer (e : Option TlbE) (lvl : Level) (k : AKind) (va : W) : Except Nat Nat :=
  match e with
  | none => .error cXLATE
  | some e =>
    match svDeny e lvl k with
    | some c => .error c
    | none => .ok (e.pbase + (fld va 0 57 - e.vbase))

/-- The cached translation that covers an address on a stack (R179). -/
def Context.cached (c : Context) (stack : Nat) (va : W) : Option TlbE :=
  c.tlb.find? (fun e => e.stack == stack && decide (e.vbase ≤ fld va 0 57) && decide (fld va 0 57 < e.vbase + e.size))

/-- A walk for an address reads a locked row, in its own entries or in another member of their groups (R263, R337). -/
def walkLocked (s : State) (r : Rq) (va : W) : Bool :=
  let v := fld va 0 57
  s.veldBusy && ((svPath s v 5 (svRoot s r.cid)).any (rawLocked s r.cid) ||
    (svMembers s r.cid v).any (fun m => rawLocked s r.cid m.2.1))

/-- A scalar translation waits for a locked row of its tables: a walk, unless the stack goes by what it has cached (R179,
R263, log 11). -/
def walkWaits (s : State) (r : Rq) (va : W) : Bool :=
  walkLocked s r va && (((s.ctx r.cid).cached r.stack va).isNone || !Config.tlbKeep s.ticks va.toNat)

/-- Equality of two answers of translation. -/
def sameAnswer (a b : Except Nat Nat) : Bool :=
  match a, b with
  | .ok x, .ok y => x == y
  | .error x, .error y => x == y
  | .ok _, .error _ => false
  | .error _, .ok _ => false

/-- Scalar translation that does not wait: the tables as they stand, or a cached translation that they no longer give, as
while a row of theirs is locked (R179, R263, log 11); with the entry that becomes cached, if any. -/
def svTranslate (s : State) (r : Rq) (k : AKind) (va : W) : Except Nat Nat × Option TlbE :=
  let now := svPage s r.cid r.stack va
  let fresh := svAnswer now r.lvl k va
  match (s.ctx r.cid).cached r.stack va with
  | none => (fresh, now)
  | some e =>
    let old := svAnswer (some e) r.lvl k va
    if walkLocked s r va then (old, none)
    else if sameAnswer fresh old then (fresh, none)
    else if Config.tlbKeep s.ticks va.toNat then (old, none)
    else (fresh, now)

/-- A stack caches a scalar translation; it keeps no other for the same address (R179). -/
def tlbFill (s : State) (cid : Nat) (e : Option TlbE) : State :=
  match e with
  | none => s
  | some e => s.modCtx cid (fun c => { c with tlb := e :: c.tlb.filter (fun x =>
      !(x.stack == e.stack && decide (x.vbase < e.vbase + e.size) && decide (e.vbase < x.vbase + x.size))) })

/-- Vector and engine translation by the loaded vector page table (R246). -/
def vpTranslate (s : State) (r : Rq) (k : AKind) (va : W) : Except Nat Nat :=
  if !vaCanon va then .error cXLATE
  else
    let v := fld va 0 57
    match (s.ctx r.cid).vpt.filter (fun e => decide (e.vpn * 0x200000 ≤ v) &&
        decide (v < e.vpn * 0x200000 + pageBytes e.psz)) with
    | [e] =>
      if (if k.writes then e.w else e.r) then .ok (e.ppn * 0x200000 + (v - e.vpn * 0x200000)) else .error cPERM
    | _ => .error cXLATE

/-- The region descriptor that applies to an address: the lowest-numbered valid one that covers it (R247). -/
def regionOf (c : Context) (va : W) : Option RdE :=
  c.rdt.find? (fun e => decide (e.base ≤ fld va 21 36) && decide (fld va 21 36 ≤ e.last))

/-- The place is in the on-chip window. -/
def Place.chip : Place → Bool
  | .hole => false
  | .dram _ _ => false
  | .ext _ => false
  | .spad _ _ => true
  | .vreg _ _ => true
  | .tile _ _ => true
  | .latA _ _ => true
  | .latB _ _ => true
  | .creg _ _ => true
  | .col _ _ => true
  | .route _ _ => true

/-- The place is in the bank-linear window. -/
def Place.linear : Place → Bool
  | .dram _ inter => !inter
  | .hole => false
  | .ext _ => false
  | .spad _ _ => false
  | .vreg _ _ => false
  | .tile _ _ => false
  | .latA _ _ => false
  | .latB _ _ => false
  | .creg _ _ => false
  | .col _ _ => false
  | .route _ _ => false

/-- The restrictions of R163 and R237 on an on-chip access of `n` bytes: the cause of its fault, if any. -/
def chipDeny (p : Place) (via : Via) (k : AKind) (lvl : Level) (n : Nat) : Option Nat :=
  let regs (off w : Nat) : Option Nat :=
    if k = .amo then some cPERM
    else if via ≠ .scalar ∨ lvl ≠ .m ∨ k = .exec then some cPERM
    else if off % w ≠ 0 ∨ n ≠ w then some cMISALIGN
    else none
  match p with
  | .spad _ _ => none
  | .vreg _ _ => if k = .amo then some cPERM else none
  | .tile _ _ => if k = .amo then some cPERM else none
  | .latA _ _ => if k.writes then some cPERM else none
  | .latB _ _ => if k.writes then some cPERM else none
  | .col _ _ => if k.writes then some cPERM else none
  | .creg _ off => regs off 8
  | .route _ off => regs off 4
  | .hole => none
  | .dram _ _ => none
  | .ext _ => none

/-- The checks of an access whose translation is `pa`, in the order of log 25, and what it becomes (R18, R233, R237,
R247, R253, R351, R408). -/
def checkPlace (s : State) (r : Rq) (via : Via) (k : AKind) (va : W) (n pa : Nat) : Except Stop (Acc × Place) :=
  let deny (c : Nat) : Except Stop (Acc × Place) := .error (.trap c va 0)
  let p := placeOf s.sdp pa
  let reg := regionOf (s.ctx r.cid) va
  let ph := match p with
    | .ext a => linkPhase s a
    | _ => 0
  let acc : Acc := match reg with
    | none =>
      { va := va.toNat, pa := pa, key := 0, cmp := false, lt := 0, ub := false, cid := r.cid, from_ := r.stack, via := via }
    | some e =>
      { va := va.toNat, pa := pa, key := e.key, cmp := e.cmp, lt := e.lt, ub := e.ub, cid := r.cid, from_ := r.stack,
        via := via }
  let bad := match reg with
    | none => false
    | some e => e.bad
  let hidden := match p with
    | .dram lin _ => withheld s.sdp lin && !acc.ub
    | _ => false
  if p = .hole then deny cXLATE
  else if ph = 2 ∨ (ph = 1 ∧ via = .copy) then deny cXLATE
  else if bad then deny cPERM
  else if p.chip && (acc.lt != 0 || acc.ub) then deny cPERM
  else if acc.lt != 0 && !p.linear then deny cPERM
  else if hidden then deny cPERM
  else if acc.ub && !p.linear then .error (.fault .unbackedOutsideWindow)
  else match chipDeny p via k r.lvl n with
    | some c => deny c
    | none =>
      match p with
      | .ext a => if extPermits s a k then (if ph = 1 ∧ k = .amo then deny cPERM else .ok (acc, p)) else deny cPERM
      | _ => .ok (acc, p)

/-- Translation and its precise checks: the access and its place, with the scalar translation that becomes cached. -/
def resolve (s : State) (r : Rq) (via : Via) (k : AKind) (va : W) (n : Nat) :
    Except Stop (Acc × Place) × Option TlbE :=
  match via with
  | .scalar =>
    if walkWaits s r va then (.error .stall, none)
    else match svTranslate s r k va with
    | (.error c, e) => (.error (.trap c va 0), e)
    | (.ok pa, e) => (checkPlace s r via k va n pa, e)
  | .vector =>
    match vpTranslate s r k va with
    | .error c => (.error (.trap c va 0), none)
    | .ok pa => (checkPlace s r via k va n pa, none)
  | .engine =>
    match vpTranslate s r k va with
    | .error c => (.error (.trap c va 0), none)
    | .ok pa => (checkPlace s r via k va n pa, none)
  | .copy =>
    match vpTranslate s r k va with
    | .error c => (.error (.trap c va 0), none)
    | .ok pa => (checkPlace s r via k va n pa, none)

/-- The entry of the vector page table in 16 bytes; none where R246 counts it as absent. -/
def vptEntry (n : Nat) : Option VptE :=
  let psz := n / 2 ^ 12 % 16
  let vpn := n / 2 ^ 64 % 2 ^ 36
  let ppn := n / 2 ^ 37 % 2 ^ 27
  let al := pageBytes psz / 0x200000
  if n % 2 = 0 ∨ psz < 4 ∨ 11 < psz ∨ vpn % al ≠ 0 ∨ ppn % al ≠ 0 ∨ n / 2 ^ 100 ≠ 0 ∨ n / 2 ^ 16 % 2 ^ 21 ≠ 0 ∨
      n / 8 % 2 ^ 9 ≠ 0 then none
  else some { vpn := vpn, psz := psz, ppn := ppn, w := n.testBit 2, r := n.testBit 1 }

/-- Rows of a context's vector page table are locked, so that its load waits (R263). -/
def vptLocked (s : State) (cid : Nat) : Bool := rangeLocked s cid (fld (s.ctx cid).vptb 20 28 * 2 ^ 20) (2 ^ 20)

/-- Rows of a context's region descriptor table are locked, so that its load waits (R263). -/
def rdtLocked (s : State) (cid : Nat) : Bool := rangeLocked s cid (fld (s.ctx cid).rdtb 12 36 * 4096) 4096

/-- The whole vector page table as a stack loads it (R246). -/
def vptLoad (s : State) (vptb : W) : List VptE :=
  (upto 0 65536).filterMap (fun i => vptEntry (rawNat s (fld vptb 20 28 * 2 ^ 20 + 16 * i) 16))

/-- A region descriptor in 16 bytes; none where V = 0 (R247). -/
def rdtEntry (n : Nat) : Option RdE :=
  let base := n / 2 ^ 92
  let last := n / 2 ^ 56 % 2 ^ 36
  let lt := n / 2 ^ 8 % 16
  let ub := n.testBit 15
  let cmp := n.testBit 16
  let rsv := decide (n / 2 ^ 32 % 2 ^ 24 ≠ 0) || decide (n / 2 ^ 17 % 64 ≠ 0) || decide (n / 2 ^ 12 % 8 ≠ 0) ||
    decide (n / 2 % 128 ≠ 0)
  if n % 2 = 0 then none
  else some { base := base, last := last, key := n / 2 ^ 23 % 512, cmp := cmp, ub := ub, lt := lt
              bad := decide (last < base) || decide (10 < lt) || (ub && (lt != 0 || cmp)) || (lt != 0 && cmp) || rsv }

/-- The region descriptor table as the stacks load it (R179, R247). -/
def rdtLoad (s : State) (rdtb : W) : List RdE :=
  (upto 0 256).filterMap (fun i => rdtEntry (rawNat s (fld rdtb 12 36 * 4096 + 16 * i) 16))

end Sys2Proof.Machine
end

