-- ==== Sys2Proof/Machine/Homes.lean ====
section
/-! DEFINITION. What a home does: reading and writing scratchpad, registers, forwarded memory and DRAM by its keys and
lattice units (R237 to R257, R353), locked rows (R337, R340) and the way over the mesh (R35, R36). -/
namespace Sys2Proof.Machine

/-- The canonical address of an access, for memory kept in bytes (log 1). -/
def homeAddr (acc : Acc) (p : Place) : Nat :=
  if acc.ub then ubAddr acc.cid acc.pa
  else match p with
    | .dram lin _ => if acc.lt = 0 then lin else lin - linStack lin * 2 ^ 36 + acc.from_ * 2 ^ 36
    | .spad c o => spadAddr c o
    | .col t o => colAddr t o
    | .ext a => a
    | .hole => acc.pa
    | .vreg _ _ => acc.pa
    | .tile _ _ => acc.pa
    | .latA _ _ => acc.pa
    | .latB _ _ => acc.pa
    | .creg _ _ => acc.pa
    | .route _ _ => acc.pa

/-- The DRAM window of an access: 1 interleaved, 0 bank-linear (R231). -/
def Place.window : Place → Nat
  | .dram _ inter => b01 inter
  | .hole => 0
  | .spad _ _ => 0
  | .vreg _ _ => 0
  | .tile _ _ => 0
  | .latA _ _ => 0
  | .latB _ _ => 0
  | .creg _ _ => 0
  | .col _ _ => 0
  | .route _ _ => 0
  | .ext _ => 0

/-- The access goes to backed DRAM. -/
def isDram (acc : Acc) (p : Place) : Bool :=
  !acc.ub && match p with
    | .dram _ _ => true
    | .hole => false
    | .spad _ _ => false
    | .vreg _ _ => false
    | .tile _ _ => false
    | .latA _ _ => false
    | .latB _ _ => false
    | .creg _ _ => false
    | .col _ _ => false
    | .route _ _ => false
    | .ext _ => false

/-- The key id that the sidecar of a line holds, and the key itself (R248, R417). -/
def lineKey (s : State) (l : Nat) : Nat := tget 0 s.keys (tget 0 s.keyIds l)

/-- The 128 bytes that the cells of a line hold: those of its encoding, under its key where that is not key 0 (R248,
R249). Sectors that the encoding does not use stand as zero (log 67). -/
def cellBytes128 (s : State) (l : Nat) : Nat :=
  let x := storedLine (tget 0 s.tags l) (s.natAt (128 * l) 128)
  if tget 0 s.keyIds l = 0 then x else lineEncrypt (lineKey s l) (128 * l) x

/-- The bytes of a line that its cells hold under another key than before (R417): what decrypting and decoding them
gives. -/
def rekeyed (s : State) (key l : Nat) : Nat := readLine (tget 0 s.tags l) (lineDecrypt key (128 * l) (cellBytes128 s l))

/-- A store to memory that keeps poison per part and nothing more: scratchpad, unbacked, host and peer (R240). -/
def plainWrite (s : State) (a n x : Nat) (cov : Cov) : State :=
  ((partsOf a n).foldl (fun s p => if cov.parts.contains p then s.setPoison p false else s) s).putNat a n x

/-- A read of memory that keeps poison per part. -/
def plainRead (s : State) (a n : Nat) : Nat × Bool := (s.natAt a n, (partsOf a n).any s.poisoned)

/-- Byte `i` of a table of 32-bit elements. -/
def elemByte (t : Tab (BitVec 32)) (i : Nat) : Nat := (tget 0 t (i / 4)).toNat / 2 ^ (8 * (i % 4)) % 256

/-- Sets byte `i` of a table of 32-bit elements. -/
def setElemByte (t : Tab (BitVec 32)) (i b : Nat) : Tab (BitVec 32) :=
  let x := (tget 0 t (i / 4)).toNat
  tput 0 t (i / 4) (BitVec.ofNat 32 (x - x / 2 ^ (8 * (i % 4)) % 256 * 2 ^ (8 * (i % 4)) + b % 256 * 2 ^ (8 * (i % 4))))

/-- The number under which the management core accesses the window: it belongs to no context and reaches the state of
every crew (R237). -/
def mgmtCid : Nat := 65536

/-- The register bytes of a hart that a context reaches through the window: those of its own running crews (R237). -/
def vregReach (s : State) (cid hart : Nat) : Bool :=
  (s.hart hart).live && (cid == mgmtCid || (s.hart hart).cid == cid)

/-- The tile and latch bytes of a core that a context reaches through the window (R237). -/
def coreReach (s : State) (cid core : Nat) : Bool :=
  s.onCore cid core || (cid == mgmtCid && (coreHarts core).any (fun h => (s.hart h).live))

/-- A register byte read through the on-chip window, zero where the context does not reach it (R236, R237). -/
def chipByte (s : State) (cid : Nat) (p : Place) (i : Nat) : Nat :=
  match p with
  | .vreg h ix =>
    if vregReach s cid h then ((s.hart h).vbyte ((ix + i) / 0x6000) ((ix + i) % 0x6000)).toNat else 0
  | .tile c ix => if coreReach s cid c then elemByte (s.core c).tiles (ix + i) else 0
  | .latA c ix => if coreReach s cid c then elemByte (s.core c).latA (ix + i) else 0
  | .latB c ix => if coreReach s cid c then elemByte (s.core c).latB (ix + i) else 0
  | .hole => 0
  | .dram _ _ => 0
  | .spad _ _ => 0
  | .creg _ _ => 0
  | .col _ _ => 0
  | .route _ _ => 0
  | .ext _ => 0

/-- A number from its bytes, lowest first. -/
def natOf : List Nat → Nat
  | [] => 0
  | b :: r => b % 256 + 256 * natOf r

/-- The value of a control register or route-table entry through the window (R34, R237). -/
def regRead (s : State) (p : Place) : Nat :=
  match p with
  | .creg h off => (crRead s h (off / 8)).toNat
  | .route t off => ((s.stack t).route t (off / 4)).toNat
  | .hole => 0
  | .dram _ _ => 0
  | .spad _ _ => 0
  | .vreg _ _ => 0
  | .tile _ _ => 0
  | .latA _ _ => 0
  | .latB _ _ => 0
  | .col _ _ => 0
  | .ext _ => 0

/-- A write to a route-table entry: its reserved bits stay zero (R6, R34). -/
def routeWrite (s : State) (t ent x : Nat) : State :=
  let v := BitVec.ofNat 32 (x % 2 ^ 24 + x / 2 ^ 28 % 16 * 2 ^ 28)
  s.modStack t (fun k => { k with routes := tput (routeReset t ent) k.routes ent v })

/-- A line of backed DRAM turns a partial store away for its key (R248). -/
def keyRefuses (s : State) (key a n : Nat) (cov : Cov) : Bool :=
  (linesOf a n).any (fun l => tget 0 s.keyIds l != key && !cov.lines.contains l)

/-- A store of `n` bytes that the device itself makes at a physical address, under key id 0; nothing is stored where the
address holds none or a line turns it away. -/
def rawPut (s : State) (pa n x : Nat) : State :=
  match rawAddr s .write pa with
  | none => s
  | some a =>
    match placeOf s.sdp pa with
    | .dram _ inter =>
      let cov := covOf a n
      if keyRefuses s 0 a n cov then s else dramWrite s 0 false a n x (b01 inter) 640 cov
    | .hole => s
    | .spad _ _ => plainWrite s a n x (covOf a n)
    | .ext _ => plainWrite s a n x (covOf a n)
    | .vreg _ _ => s
    | .tile _ _ => s
    | .latA _ _ => s
    | .latB _ _ => s
    | .creg _ _ => s
    | .col _ _ => s
    | .route _ _ => s

/-- The physical address of the access counter of a context that covers a forwarded address (R251, R416). -/
def counterAt (s : State) (cid pa : Nat) : Nat := (s.ctx cid).acnt + 2 * ((pa - extBase) / 0x200000)

/-- `k` forwarded 64-byte accesses at an address are counted in the driver's table (R251). -/
def countExt (s : State) (cid pa k : Nat) : State :=
  let a := counterAt s cid pa
  if k = 0 then s else rawPut s a 2 (Nat.min 65535 (rawNat s a 2 + k))

/-- How a stack's slices hold a line of host memory: 0 not, 1 shared, 2 with ownership; the line may have left them before
the access (R27, R251, log 27). -/
def hostHeld (s : State) (st l : Nat) : Nat :=
  if Config.hostEvict s.ticks (16 * l + st) then 0 else tget 0 s.hostLines (16 * l + st)

/-- The unbacked lines, of every context, that stand in the set of a stack's slice to which line `la` goes (R25, R26):
contexts and physical line numbers. -/
def setLines (s : State) (st la : Nat) : List (Nat × Nat) :=
  s.ctxs.flatMap (fun e => (e.2.ubLines.filter (fun u => decide (u.2 = .cache) &&
      e.2.curStack (u.1 * 128) == st && sliceOf (u.1 * 128) == sliceOf (la * 128) &&
      setOf (u.1 * 128) == setOf (la * 128))).map (fun u => (e.1, u.1)))

/-- The lines of host memory that stand in that set, by their keys of `State.hostLines` (R25 to R27). -/
def setHosts (s : State) (st la : Nat) : List Nat :=
  (tkeys s.hostLines).filter (fun k => k % 16 == st && sliceOf (k / 16 * 128) == sliceOf (la * 128) &&
    setOf (k / 16 * 128) == setOf (la * 128))

/-- A host line that has come into a set with no way left for it takes the way of another host line, or stays out (R25,
log 16). -/
def fitHost (st l : Nat) (s : State) : State :=
  let hosts := setHosts s st l
  if (setLines s st l).length + hosts.length ≤ ways s.sdp then s
  else
    let other := hosts.filter (fun k => k != 16 * l + st)
    { s with hostLines := tdel s.hostLines (other.getD (Config.ubVictim s.ticks l % other.length) (16 * l + st)) }

/-- A line of host memory that an access of stack `st` touches: a miss and a request for ownership are forwarded, two
accesses of 64 bytes each, and ownership takes the line from the other stacks (R27, R251). -/
def touchHost (st cid : Nat) (w : Bool) (s : State) (l : Nat) : State :=
  let held := hostHeld s st l
  let s1 := if held = 0 ∨ (w ∧ held = 1) then countExt s cid (128 * l) 2 else s
  let t := if w then tfilter (fun k => k / 16 != l) s1.hostLines else s1.hostLines
  fitHost st l { s1 with hostLines := tput 0 t (16 * l + st) (if w then 2 else Nat.max 1 held) }

/-- An access beyond the CXL ports: host memory by the slices of the stack that issues it, peer memory by one forwarded
access for each 64-byte block (R251, log 27). -/
def touchExt (s : State) (acc : Acc) (pa n : Nat) (w : Bool) : State :=
  if extHost s pa then (linesOf pa n).foldl (touchHost acc.from_ acc.cid w) s
  else countExt s acc.cid pa ((pa + n - 1) / 64 + 1 - pa / 64)

/-- A peer turns a store or an atomic away (R155, R163, log 61). -/
def peerDenies (s : State) (pa : Nat) : Bool := !extHost s pa && Config.peerRefuses s.ticks pa

/-- An atomic takes a host line with ownership, be it to write or not, and is one forwarded access to a peer, be it refused or
not (R163, R251). -/
def touchAmo (s : State) (acc : Acc) (p : Place) (n : Nat) : State :=
  match p with
  | .ext a => if acc.ub || decide (linkPhase s a = 1) then s else touchExt s acc a n true
  | _ => s

/-- A write to register bytes through the on-chip window; a discarded byte where the context does not reach it
(R236, R237). -/
def setChipByte (cid : Nat) (p : Place) (x : Nat) (s : State) (i : Nat) : State :=
  let b := x / 2 ^ (8 * i) % 256
  match p with
  | .vreg h ix =>
    if vregReach s cid h then
      s.modHart h (fun y => y.setVbyte ((ix + i) / 0x6000) ((ix + i) % 0x6000) (BitVec.ofNat 8 b))
    else s
  | .tile c ix =>
    if coreReach s cid c then s.modCore c (fun k => { k with tiles := setElemByte k.tiles (ix + i) b }) else s
  | .hole => s
  | .dram _ _ => s
  | .spad _ _ => s
  | .latA _ _ => s
  | .latB _ _ => s
  | .creg _ _ => s
  | .col _ _ => s
  | .route _ _ => s
  | .ext _ => s

/-- A window write to registers is performed: `w.n` bytes from `w.pa` (R236, R237). -/
def applyWin (s : State) (w : WinPart) : State :=
  let p := placeOf s.sdp w.pa
  match p with
  | .creg h off => crWrite s h (off / 8) (wd w.data)
  | .vreg _ _ => (upto 0 w.n).foldl (setChipByte w.cid p w.data) s
  | .tile _ _ => (upto 0 w.n).foldl (setChipByte w.cid p w.data) s
  | .hole => s
  | .dram _ _ => s
  | .spad _ _ => s
  | .latA _ _ => s
  | .latB _ _ => s
  | .col _ _ => s
  | .route _ _ => s
  | .ext _ => s

/-- The window writes that wait and that `now` names are performed, oldest first (R238). -/
def flushParts (now : WinPart → Bool) (s : State) : State :=
  match s.winParts with
  | [] => s
  | ws => (ws.filter now).foldl applyWin { s with winParts := ws.filter (fun w => !now w) }

/-- A window access to bytes that share a part with a write that waits comes after it (R238). -/
def flushRange (s : State) (pa n : Nat) : State :=
  flushParts (fun w => decide (w.pa / 16 ≤ (pa + n - 1) / 16) && decide (pa / 16 ≤ (w.pa + w.n - 1) / 16)) s

/-- Time passes for the window writes that wait: those of the parts that the step names are performed (R238, log 19). -/
def settleWin (s : State) : State := flushParts (fun w => Config.winNow s.ticks (w.pa / 16)) s

/-- The registers at a place are those of a running hart, whose instructions a window write need not precede (R238). -/
def winRuns (s : State) (p : Place) : Bool :=
  match p with
  | .vreg h _ => (s.hart h).live
  | .creg h _ => (s.hart h).live
  | .tile c _ => (coreHarts c).any (fun h => (s.hart h).live)
  | .hole => false
  | .dram _ _ => false
  | .spad _ _ => false
  | .latA _ _ => false
  | .latB _ _ => false
  | .col _ _ => false
  | .route _ _ => false
  | .ext _ => false

/-- A window write of `n` bytes to registers, one 16-byte part at a time: performed now, or where the registers are those
of a running hart at a later boundary (R238, log 19). -/
def winWrite (s : State) (cid pa n x who : Nat) : State :=
  let s0 := flushRange s pa n
  let put (s : State) (p : Nat) : State :=
    let lo := Nat.max pa (16 * p)
    let w : WinPart := { who := who, cid := cid, pa := lo, n := Nat.min (pa + n) (16 * p + 16) - lo
                         data := x / 2 ^ (8 * (lo - pa)) % 2 ^ (8 * (Nat.min (pa + n) (16 * p + 16) - lo)) }
    if winRuns s (placeOf s.sdp lo) && !Config.winNow s.ticks p then
      { s with winParts := s.winParts ++ [w] }
    else applyWin s w
  (partsOf pa n).foldl put s0

/-- A read of `n` bytes at the home, with whether any of it is poisoned. -/
def homeRead (s : State) (acc : Acc) (p : Place) (n : Nat) : (Nat × Bool) × State :=
  let a := homeAddr acc p
  if acc.ub then (plainRead s a n, s)
  else match p with
    | .dram _ _ => dramRead s acc.key a n p.window
    | .spad _ _ => (plainRead s a n, s)
    | .col _ _ => ((s.natAt a n, false), s)
    | .ext pa =>
      if linkPhase s pa = 1 then ((0, true), s) else (plainRead s a n, touchExt s acc pa n false)
    | .creg _ _ =>
      let t := flushRange s acc.pa n
      ((regRead t p, false), t)
    | .route _ _ => ((regRead s p, false), s)
    | .vreg _ _ =>
      let t := flushRange s acc.pa n
      ((natOf ((upto 0 n).map (chipByte t acc.cid p)), false), t)
    | .tile _ _ =>
      let t := flushRange s acc.pa n
      ((natOf ((upto 0 n).map (chipByte t acc.cid p)), false), t)
    | .latA _ _ => ((natOf ((upto 0 n).map (chipByte s acc.cid p)), false), s)
    | .latB _ _ => ((natOf ((upto 0 n).map (chipByte s acc.cid p)), false), s)
    | .hole => ((0, false), s)

/-- K of the exchange mode in force (R356). -/
def State.exchK (s : State) : Nat := modeK (fld s.xschedNow 0 2)

/-- A lattice line of a replica rises: its count is set to K (R356). -/
def raiseLine (s : State) (acc : Acc) (a : Nat) : State :=
  { s with ttl := tins (tdel s.ttl (a / 128)) (a / 128) (s.exchK, acc.lt, acc.cid) }

/-- A value written to a unit of a local replica, which rises where the value changes (R353, R354, R356). -/
def latWrite (s : State) (acc : Acc) (a n x who : Nat) (cov : Cov) : State :=
  let s1 := dramWrite s acc.key false a n x 0 who { cov with lines := [] }
  if s.natAt a n = x then s1 else raiseLine s1 acc a

/-- The number of the store instruction that writes now (R214, R354, log 62): even for one of the vector queue, odd for any
other. A scalar store is performed in one step, its own or the one in which its request reaches the home. -/
def storeNo (s : State) (via : Via) : Nat :=
  if via = .scalar ∨ via = .copy then 2 * s.ticks + 1
  else match s.agent with
    | .hart h => 2 * (s.hart h).vecNo
    | .queue h => 2 * ((s.hart h).vq.head?.map (·.no)).getD 0
    | .mseq _ => 2 * s.ticks + 1
    | .cseq _ => 2 * s.ticks + 1

/-- The key under which the bytes of a part that a writer's scalar store, or its store of another kind, has written stand
(R354). -/
def latKey (via : Via) (p who : Nat) : Nat := 1024 * (2 * p + b01 (decide (via = .scalar))) + who

/-- The bytes of a part that a store instruction has written with those of one more unit, and the parts that it has then
written whole (R354). -/
def latCover (s : State) (acc : Acc) (a n who : Nat) : State × List Nat :=
  let no := storeNo s acc.via
  let put (q : State × List Nat) (p : Nat) : State × List Nat :=
    let k := latKey acc.via p who
    let old := tget (0, 0) q.1.latAcc k
    let m := (if old.1 = no then old.2 else 0) ||| (partStore a n 0 p).1
    if m = 0xFFFF then ({ q.1 with latAcc := tdel q.1.latAcc k }, p :: q.2)
    else ({ q.1 with latAcc := tput (0, 0) q.1.latAcc k (no, m) }, q.2)
  (partsOf a n).foldl put (s, [])

/-- One unit of an ordinary store at the local replica: the key id first, then the order (R353). The unit's part loses its
poison once the instruction has written all 16 bytes of it (R354). -/
def latUnit (s : State) (acc : Acc) (a n x who : Nat) : State × Option Nat :=
  let s0 := (partsOf a n).foldl settleSoft s
  if tget 0 s0.keyIds (a / 128) ≠ acc.key then (s0, some cKEY)
  else if storeRejected acc.lt (s0.natAt a n) x then (s0, some cMONO)
  else
    let c := latCover s0 acc a n who
    (latWrite c.1 acc a n x who { lines := [], parts := c.2 }, none)

/-- The units of a store of `n` bytes to a lattice region, each on its own: the refused ones by address and cause
(R156, R216). -/
def latStore (acc : Acc) (u who : Nat) : Nat → Nat → Nat → State → State × List (Nat × Nat)
  | 0, _, _, s => (s, [])
  | k + 1, a, x, s =>
    let r := latUnit s acc a u (x % 2 ^ (8 * u)) who
    let q := latStore acc u who k (a + u) (x / 2 ^ (8 * u)) r.1
    (q.1, (match r.2 with
      | none => []
      | some c => [(a, c)]) ++ q.2)

/-- A store of `n` bytes at the home: the new state and the refused units by their offset and cause. -/
def homeWrite (s : State) (acc : Acc) (p : Place) (n x who : Nat) (cov : Cov) : State × List (Nat × Nat) :=
  let a := homeAddr acc p
  if acc.ub then (plainWrite s a n x cov, [])
  else match p with
    | .dram _ _ =>
      if acc.lt ≠ 0 then
        let u := unitBytes acc.lt
        let r := latStore acc u who (n / u) a x s
        (r.1, r.2.map (fun e => (e.1 - a, e.2)))
      else if keyRefuses s acc.key a n cov then (s, [(0, cKEY)])
      else (dramWrite s acc.key acc.cmp a n x p.window who cov, [])
    | .spad _ _ => (plainWrite s a n x cov, [])
    | .ext pa =>
      if linkPhase s pa = 1 then (s, [(0, cREMOTE)])
      else if peerDenies s pa then (touchExt s acc pa n true, [(0, cREMOTE)])
      else (plainWrite (touchExt s acc pa n true) a n x cov, [])
    | .creg _ _ => (winWrite s acc.cid acc.pa n x who, [])
    | .route t off => (routeWrite s t (off / 4) x, [])
    | .vreg _ _ => (winWrite s acc.cid acc.pa n x who, [])
    | .tile _ _ => (winWrite s acc.cid acc.pa n x who, [])
    | .latA _ _ => (s, [])
    | .latB _ _ => (s, [])
    | .col _ _ => (s, [])
    | .hole => (s, [])

/-- The read of an atomic at its home, which `touchAmo` has touched (R163). -/
def amoRead (s : State) (acc : Acc) (p : Place) (n : Nat) : (Nat × Bool) × State :=
  match acc.ub, p with
  | false, .ext a => if linkPhase s a = 1 then ((0, true), s) else (plainRead s a n, s)
  | _, _ => homeRead s acc p n

/-- The write of an atomic at its home, in memory that takes it (R163). -/
def amoWrite (s : State) (acc : Acc) (p : Place) (n x who : Nat) (cov : Cov) : State :=
  match acc.ub, p with
  | false, .ext a => plainWrite s a n x cov
  | _, _ => (homeWrite s acc p n x who cov).1

/-- The computing banks that an access of `n` bytes touches, by one address in each: a line lies in one row (R232, R234). -/
def gapLines (s : State) (acc : Acc) (p : Place) (n : Nat) : List Nat :=
  if isDram acc p && s.veldBusy then (linesOf (homeAddr acc p) n).map (· * 128) else []

/-- An access waits at its home: for a locked row, for the row of the access counter that it bumps, or for the gap of a
computing bank (R263, R337). -/
def homeHeld (s : State) (who : Nat) (acc : Acc) (p : Place) (n : Nat) : Bool :=
  (isDram acc p && (linesOf (homeAddr acc p) n).any (fun l => rowLocked s acc.cid (l * 128))) ||
    (gapLines s acc p n).any (gapShut s who) ||
    (match p with
      | .ext a => rawLocked s acc.cid (counterAt s acc.cid a)
      | _ => false)

/-- An access that its home serves has used the gaps that stood for it (R337). -/
def takeGaps (s : State) (who : Nat) (acc : Acc) (p : Place) (n : Nat) : State := (gapLines s acc p n).foldl (useGap who) s

/-- An access that waits begins to wait for the gaps that it needs (R337). -/
def askGaps (s : State) (who : Nat) (acc : Acc) (p : Place) (n : Nat) : State :=
  ((gapLines s acc p n).filter (gapShut s who)).foldl (askGap who) s

/-- Where a packet of the mesh ends (R35, R36, R418). -/
inductive Trip where
  | arrived (stack : Nat) | error (stack : Nat) | lost | blocked
deriving DecidableEq, Repr

/-- The opposite direction. -/
def backDir (d : Nat) : Nat := (d + 2) % 4

/-- The virtual channel of a packet: requests on 0, responses on 1 (R32). -/
def FReq.vc (q : FReq) : Nat := if q.phase = .back then 1 else 0

/-- A packet is under way: a request not yet at its home or a response not yet at its source. -/
def FReq.moving (q : FReq) : Bool := (decide (q.phase = .out) || decide (q.phase = .back)) && !q.here && !q.lost

/-- Flits in the receiver's buffer of a link, given as 4 × sender + direction, on a channel: those of the packets that
came over it and stand there, one flit each (log 68), and of other traffic (R33). -/
def bufferFlits (s : State) (l vc : Nat) : Nat :=
  (s.reqs.filter (fun e => e.2.moving && decide (e.2.vc = vc) && decide (neighbour (l / 4) (l % 4) = some e.2.router) &&
      decide (e.2.came = some (backDir (l % 4))))).length + tget 0 s.linkFlits (l * 4 + vc)

/-- A sender does not put a flit on a link: its channel is off, or the receiver's 128 flits are taken (R33). -/
def linkShut (s : State) (l vc : Nat) : Bool := tget false s.linkOff (l * 4 + vc) || decide (128 ≤ bufferFlits s l vc)

/-- A packet at router `r` with a turn list, having arrived on the link in direction `came` (R35, R36). -/
def tripFrom (s : State) (vc : Nat) : Nat → Nat → Nat → Nat → Option Nat → Trip
  | 0, r, _, _, _ => .error r
  | fuel + 1, r, hops, turns, came =>
    if 13 ≤ hops then .error r
    else if hops = 0 then .arrived r
    else
      let d := turns % 4
      if came = some d then .error r
      else match neighbour r d with
        | none => .error r
        | some q =>
          if tget false s.linksDown (4 * r + d) then .lost
          else if linkShut s (4 * r + d) vc then .blocked
          else tripFrom s vc fuel q (hops - 1) (turns / 4) (some (backDir d))

/-- The way of a packet from one stack to another under the route entry value that was copied at its injection (R34, R35).
A packet for the router's own stack needs no way and is there, whatever the table's entry for that stack holds (log 69). -/
def tripBy (s : State) (src dst vc e : Nat) : Trip :=
  if src = dst then .arrived dst else tripFrom s vc 14 src (e / 2 ^ 28) (e % 2 ^ 24) none

/-- The way of a packet that is injected now, under the route entry in force (R34, R35). -/
def trip (s : State) (src dst vc : Nat) : Trip := tripBy s src dst vc ((s.stack src).route src dst).toNat

/-- The slices of the stack that issues an access hold its host line, for a store with ownership, so that nothing is
forwarded (R27, R251). -/
def hostHere (s : State) (acc : Acc) (pa : Nat) (w : Bool) : Bool :=
  extHost s pa && decide ((if w then 2 else 1) ≤ hostHeld s acc.from_ (pa / 128))

/-- The stack whose agents perform a load, or where `w` holds a store or an atomic: the home of its bytes (R27, R239,
R251, R352, R363). -/
def homeFor (s : State) (acc : Acc) (p : Place) (w : Bool) : Nat :=
  if acc.ub then (s.ctx acc.cid).curStack acc.pa
  else match p with
    | .dram lin _ => if acc.lt = 0 then linStack lin else acc.from_
    | .spad c _ => coreStack c
    | .vreg h _ => stackOf h
    | .tile c _ => coreStack c
    | .latA c _ => coreStack c
    | .latB c _ => coreStack c
    | .creg h _ => stackOf h
    | .col t _ => t
    | .route t _ => t
    | .ext pa => if hostHere s acc pa w then acc.from_ else match servingPort s pa with
      | none => acc.from_
      | some q => portStack q
    | .hole => acc.from_

/-- The home of the bytes of a load. -/
def homeStack (s : State) (acc : Acc) (p : Place) : Nat := homeFor s acc p false

/-- How a request and its response fare: performed and answered, not performed and unreachable, performed and
unreachable, or held back by a link (R36, R418). -/
inductive Reach where
  | ok | unreached | unanswered | held
deriving DecidableEq, Repr

/-- An access that may change its bytes. -/
def HomeOp.writes : HomeOp → Bool
  | .read => false
  | .write _ => true
  | .amo _ _ => true
  | .cas _ _ => true

/-- The stack that a packet comes from and the one it goes to. -/
def FReq.ends (q : FReq) : Nat × Nat :=
  if q.phase = .back then (q.home, stackOf q.src) else (stackOf q.src, q.home)

/-- The stacks that a lattice line comes from and goes to. -/
def XLine.ends (x : XLine) : Nat × Nat := (x.src * 128 / 2 ^ 36, x.line * 128 / 2 ^ 36)

/-- A lattice line has been read in full and so injected (R37, R356). -/
def XLine.sent (x : XLine) : Bool := x.unread.isEmpty

/-- A packet injected now under the route entry in force would overtake one of the same source, destination and channel
that was injected earlier under the same value: a request or a response, or on channel 3 a lattice line (R32, R37). -/
def overtakes (s : State) (src dst vc : Nat) : Bool :=
  let e := ((s.stack src).route src dst).toNat
  s.reqs.any (fun q => q.2.moving && decide (q.2.vc = vc) && q.2.ends == (src, dst) && q.2.entry == e) ||
    (decide (vc = 3) && s.xlines.any (fun x => x.2.sent && x.2.ends == (src, dst) && x.2.entry == e))

/-- The way to a stack on one channel and back on another, behind the packets that went before (R32, R35 to R37). -/
def reachOn (s : State) (there back src dst : Nat) : Reach :=
  if src = dst then .ok
  else if overtakes s src dst there || overtakes s dst src back then .held
  else match trip s src dst there with
    | .blocked => .held
    | .lost => .unreached
    | .error _ => .unreached
    | .arrived t =>
      if t ≠ dst then .unreached
      else match trip s dst src back with
        | .blocked => .held
        | .lost => .unanswered
        | .error _ => .unanswered
        | .arrived u => if u = src then .ok else .unanswered

/-- The way to a home and back: requests on channel 0, responses on 1 (R32). -/
def reach (s : State) (src dst : Nat) : Reach := reachOn s 0 1 src dst

/-- The router that finds a routing error on the way of a packet, if one does (R36). -/
def tripError (t : Trip) : List Nat :=
  match t with
  | .error r => [r]
  | .arrived _ => []
  | .lost => []
  | .blocked => []

/-- A packet that ends at a routing error leaves its router's report for the management core (R36). -/
def logWay (s : State) (t : Trip) : State :=
  match tripError t with
  | [] => s
  | l => { s with out := s.out ++ l.map .routingError }

/-- The report on a packet that is injected now (R36). -/
def logTrip (s : State) (src dst vc : Nat) : State := logWay s (trip s src dst vc)

/-- The routing errors of a packet to a stack, and of its answer where it arrived (R36). -/
def logOn (s : State) (there back src dst : Nat) : State :=
  if src = dst then s
  else match trip s src dst there with
    | .arrived t => if t = dst then logTrip s dst src back else s
    | .error _ => logTrip s src dst there
    | .lost => s
    | .blocked => s

/-- The routing errors of a request to a home and of its response (R32, R36). -/
def logReach (s : State) (src dst : Nat) : State := logOn s 0 1 src dst

end Sys2Proof.Machine
end

