-- ==== Sys2Proof/Machine/Access.lean ====
section
/-! DEFINITION. Accesses as instructions make them: unbacked lines (R363 to R368), refusals (R155, R400, R405), loads,
stores and atomics with their checks in order (R155, R156, R163, R183, R213). -/
namespace Sys2Proof.Machine

/-- Frames of a pool that hold the late-frame table (R367). -/
def tableFrames (pool : W) : Nat := ceilDiv (8 * fld pool 40 24) 4096

/-- The frame that serves a block of 32 lines, if any (R366). -/
def Context.frameOf (c : Context) (line : Nat) : Option Nat := (c.frames.find? (fun e => e.2.1 == line / 32)).map (·.1)

/-- The lowest free frame of the pool as it stands (R366, R367). -/
def Context.freeFrame (c : Context) : Option Nat :=
  let base := fld c.ubpool 12 28
  let t := tableFrames c.ubpool
  (upto (base + t) (fld c.ubpool 40 24 - t)).find? (fun f => !(c.frames.any (fun e => e.1 == f)))

/-- The 128 bytes of a line in its late frame, or zero where its block has none (R366). -/
def refillNat (s : State) (c : Context) (line : Nat) : Nat :=
  match c.frameOf line with
  | none => 0
  | some f => devNat s (f * 4096 + line % 32 * 128) 128

/-- The entry of the late-frame table for a frame (R367). -/
def frameEntry (line : Nat) : Nat := 2 ^ 63 + line / 32 * 4096

/-- A dirty line goes to its late frame; none when the pool has no free frame (R366, R368). -/
def spillLine (s : State) (cid line : Nat) : Option State :=
  let c := s.ctx cid
  let pick := match c.frameOf line with
    | some f => some (f, false)
    | none => c.freeFrame.map (fun f => (f, true))
  match pick with
  | none => none
  | some (f, new) =>
    let base := fld c.ubpool 12 28
    let entry := base * 4096 + 8 * (f - base)
    let s1 := devPut s (f * 4096 + line % 32 * 128) 128 (s.natAt (ubAddr cid (line * 128)) 128)
    let s2 := if new then devPut s1 entry 8 (frameEntry line) else s1
    some (s2.setCtx cid { c with
      ubLines := tput .cache c.ubLines line .late
      frames := if new then tins (tdel c.frames f) f (line / 32, entry) else c.frames })

/-- Where a present line is. -/
def Context.ubAt (c : Context) (line : Nat) : Option UbLoc := (c.ubLines.find? (fun e => e.1 == line)).map (·.2)

/-- Records where a present line is. -/
def setUb (s : State) (cid line : Nat) (l : UbLoc) : State :=
  s.modCtx cid (fun c => { c with ubLines := tins (tdel c.ubLines line) line l })

/-- A line leaves the cache of its stack through a way conflict (R366); none when its spill finds no frame (R368). -/
def evictUb (s : State) (cid line : Nat) : Option State :=
  let c := s.ctx cid
  let st := c.curStack (line * 128)
  if s.natAt (ubAddr cid (line * 128)) 128 = refillNat s c line then
    some (setUb s cid line (if (c.frameOf line).isSome then .dropped else .zero))
  else if (s.stack st).victims.length < 64 then
    some (setUb (s.modStack st (fun t => { t with victims := t.victims ++ [(cid, line)] })) cid line .victim)
  else (spillLine s cid line).map (fun s1 => setUb s1 cid line .late)

/-- The virtual address at which a context maps a physical line, as its loaded tables or a cached translation give it
(R398); none where neither does. -/
def Context.vaOf (c : Context) (line : Nat) : Option Nat :=
  let a := line * 128
  match c.vpt.find? (fun e => decide (e.ppn * 0x200000 ≤ a) && decide (a < e.ppn * 0x200000 + pageBytes e.psz)) with
  | some e => some (e.vpn * 0x200000 + (a - e.ppn * 0x200000))
  | none => (c.tlb.find? (fun e => decide (e.pbase ≤ a) && decide (a < e.pbase + e.size))).map
      (fun e => e.vbase + (a - e.pbase))

/-- The address that the loss of a line reports (R398); unstated where no translation of the line is held (log 18). -/
def lostVa (s : State) (cid line : Nat) : W :=
  match (s.ctx cid).vaOf line with
  | some v => sext 57 v
  | none => Config.unstated s.ticks line

/-- An unbacked line leaves the cache of its stack. A dirty line that finds no frame costs its context (R368): the agent's
own, where it is that one, which `.error` gives. -/
def driveOut (s : State) (v : Nat × Nat) (cid : Nat) : Except W State :=
  match evictUb s v.1 v.2 with
  | some s1 => .ok s1
  | none => if v.1 = cid then .error (lostVa s v.1 v.2) else .ok (removeContext s v.1 0x30 (lostVa s v.1 v.2))

/-- A line comes into a set of a stack's slice, or an access to a line of it makes room: where the set has no way left for
it, an unbacked line but `self` or a host line leaves the cache; where it has, the free value of the step may drive an
unbacked one out (R25 to R27, R366, log 16). -/
def conflictUb (s : State) (st la : Nat) (self : Option (Nat × Nat)) (cid : Nat) : Except W State :=
  let all := setLines s st la
  let hosts := setHosts s st la
  let cand := all.filter (fun e => some e != self)
  let other := hosts.filter (fun k => k != 16 * la + st)
  let pick (n : Nat) : Nat := Config.ubVictim s.ticks la % n
  if all.length + hosts.length + b01 (self.isNone && !hosts.contains (16 * la + st)) ≤ ways s.sdp then
    match cand with
    | [] => .ok s
    | d :: _ => if Config.ubConflict s.ticks la then driveOut s (cand.getD (pick cand.length) d) cid else .ok s
  else
    let i := pick (cand.length + other.length)
    match cand[i]? with
    | some v => driveOut s v cid
    | none => .ok { s with hostLines := tfilter (fun k => some k != other[i - cand.length]?) s.hostLines }

/-- A touched line that is present returns to the cache: from the victim buffer, or filled again from its source
(R366). -/
def returnUb (s : State) (cid line : Nat) (l : UbLoc) : State :=
  let c := s.ctx cid
  match l with
  | .cache => s
  | .victim =>
    let keep (v : Nat × Nat) : Bool := v != (cid, line)
    setUb (s.modStack (c.curStack (line * 128)) (fun t => { t with victims := t.victims.filter keep })) cid line .cache
  | .dropped => setUb (s.putNat (ubAddr cid (line * 128)) 128 (refillNat s c line)) cid line .cache
  | .zero => setUb (s.putNat (ubAddr cid (line * 128)) 128 0) cid line .cache
  | .late => setUb (s.putNat (ubAddr cid (line * 128)) 128 (refillNat s c line)) cid line .cache

/-- An access of a context to a line of a stack's slices makes its way conflict, if any (R366). -/
def conflictX (st la : Nat) (self : Option (Nat × Nat)) (cid : Nat) : X Unit := do
  match conflictUb (← get) st la self cid with
  | .ok s => set s
  | .error va => throw (.fatal 0x30 va)

/-- An access touches an unbacked line for which there is room: it is allocated as zero where it is not present (R365). -/
def touchUb (cid line : Nat) : X Unit := do
  let s ← get
  let c := s.ctx cid
  match c.ubAt line with
  | some l => set (returnUb s cid line l)
  | none => set (setUb (s.putNat (ubAddr cid (line * 128)) 128 0) cid line .cache)
  conflictX (c.curStack (line * 128)) line (some (cid, line)) cid

/-- What an access asks of the unit of a lattice region: nothing, whole units (R156), exactly one unit, or that the
region be no lattice region (R216). -/
inductive UnitRule where
  | any | whole | exact | never
deriving DecidableEq, Repr

/-- An access of `n` bytes keeps the unit rule of its region. -/
def UnitRule.ok (u : UnitRule) (lt va n : Nat) : Bool :=
  lt == 0 || match u with
    | .any => true
    | .whole => va % unitBytes lt == 0 && n % unitBytes lt == 0
    | .exact => n == unitBytes lt
    | .never => false

/-- Col entries of a hart that are not yet broadcast overlap a vector read of the broadcast region (R228, R378). -/
def colBusy (s : State) (who : Nat) (p : Place) (n : Nat) : Bool :=
  match p with
  | .col t off => (s.stack t).colQ.any (fun e => e.hart == who && decide (e.chunk * 32 < off + n) &&
      decide (off < e.chunk * 32 + 32))
  | .hole => false
  | .dram _ _ => false
  | .spad _ _ => false
  | .vreg _ _ => false
  | .tile _ _ => false
  | .latA _ _ => false
  | .latB _ _ => false
  | .creg _ _ => false
  | .route _ _ => false
  | .ext _ => false

/-- A checked range of an access that may cross a line: address, bytes, translation and place. -/
structure Piece where
  va : W
  n : Nat
  acc : Acc
  p : Place
deriving DecidableEq, Repr

/-- A range that an access asks for: address, bytes, alignment, and what it asks of the unit of a lattice region. -/
structure Want where
  va : W
  n : Nat
  al : Nat
  u : UnitRule
deriving DecidableEq, Repr

/-- Reads and writes of an access, as an SVF counts them (R168). -/
def AKind.reads : AKind → Bool
  | .read => true
  | .write => false
  | .exec => false
  | .amo => true

/-- A vector-queue instruction that reads memory (R168, R209, R218, R225): the loads, VWAIT, MGATH and MLD. -/
def vecReads (i : Instr) : Bool :=
  match encode i with
  | none => false
  | some e => [0xA8, 0xAA, 0xAC, 0xAE, 0xB0, 0xB3, 0xB6, 0xC3, 0xC8].contains e.op

/-- A vector-queue instruction that writes memory (R168, R209, R218): the stores, MST and COLST. -/
def vecWrites (i : Instr) : Bool :=
  match encode i with
  | none => false
  | some e => [0xA9, 0xAB, 0xAD, 0xAF, 0xB1, 0xB2, 0xC9, 0xE5].contains e.op

/-- Vector accesses that an SVF of direction SV makes wait for posted scalar ones still under way (R168). -/
def svHolds (s : State) (l : List SvWait) (k : AKind) : Bool :=
  l.any (fun w => ((k.reads && w.reads) || (k.writes && w.writes)) && s.reqs.any (fun e => e.1 == w.req))

/-- VSTREAM, whose binding's strips later readers fetch (R221). -/
def bindsStream (i : Instr) : Bool :=
  match encode i with
  | none => false
  | some e => e.op == 0xB4

/-- Entries of a queue whose accesses belong to a predecessor set; the strips of a stream that is bound, or that a queued
VSTREAM is yet to bind, count as reads (R168). -/
def VsWait.among (w : VsWait) (x : Hart) (q : List VEntry) : Bool :=
  let strips := !x.streams.isEmpty || q.any (fun e => decide (e.no < w.till) && bindsStream e.instr)
  q.any (fun e => decide (e.no < w.till) && ((w.pr && (vecReads e.instr || strips)) || (w.pw && vecWrites e.instr)))

/-- The accesses of a predecessor set that have not been performed: those of the queue, and COLST entries (R168, R374). -/
def VsWait.pends (w : VsWait) (x : Hart) : Bool := w.among x x.vq || (w.pw && decide (x.colPend ≠ 0))

/-- Scalar accesses of a hart that an SVF of direction VS makes wait for its earlier vector instructions (R168). -/
def vsHolds (x : Hart) (k : AKind) : Bool :=
  x.vs.any (fun w => ((k.reads && w.sr) || (k.writes && w.sw)) && w.pends x)

/-- The SVFs of the agent hold an access back (R168); a copy's accesses are no instruction's. -/
def svfHolds (s : State) (via : Via) (k : AKind) : Bool :=
  match s.agent, via with
  | _, .copy => false
  | .hart h, .scalar => vsHolds (s.hart h) k
  | .hart h, _ => svHolds s (s.hart h).sv k
  | .queue h, .scalar => vsHolds (s.hart h) k
  | .queue h, _ => match (s.hart h).vq with
    | [] => svHolds s (s.hart h).sv k
    | e :: _ => svHolds s e.sv k
  | .mseq _, _ => false
  | .cseq _, _ => false

/-- The fault of the ranges of one unit: of the lowest that does not translate, else of the lowest that is not permitted
(R213). -/
def unitFault (l : List (Except Stop (Acc × Place))) : Option Stop :=
  let lost (e : Except Stop (Acc × Place)) : Option Stop := match e with
    | .error (.trap c v i) => if c = cXLATE then some (.trap c v i) else none
    | _ => none
  let denied (e : Except Stop (Acc × Place)) : Option Stop := match e with
    | .error x => some x
    | .ok _ => none
  match l.findSome? lost with
  | some x => some x
  | none => l.findSome? denied

/-- The translation and permission faults of the ranges of one unit (R213), else the ranges with their places. -/
def resolveAll (r : Rq) (via : Via) (k : AKind) (l : List Want) : X (List Piece) := do
  let s ← get
  let rs := l.map (fun w => (w, resolve s r via k w.va w.n))
  match unitFault (rs.map (·.2.1)) with
  | some x => throw x
  | none => pure ()
  set (rs.foldl (fun s e => tlbFill s r.cid e.2.2) s)
  return rs.filterMap (fun e => match e.2.1 with
    | .ok a => some { va := e.1.va, n := e.1.n, acc := a.1, p := a.2 }
    | .error _ => none)

/-- The misalignment of a checked range, of its lattice unit, and an atomic to a lattice region (R156, R163, R216). -/
def alignCheck (k : AKind) (w : Want) (p : Piece) : X Unit := do
  if w.va.toNat % w.al ≠ 0 ∨ !w.u.ok p.acc.lt w.va.toNat w.n then trap cMISALIGN w.va
  if k = .amo ∧ p.acc.lt ≠ 0 then trap cPERM w.va

/-- A checked range waits: at its home (R263, R337), for Col entries (R228), or behind an SVF (R168). -/
def pieceHeld (s : State) (r : Rq) (via : Via) (k : AKind) (p : Piece) : Bool :=
  homeHeld s r.who p.acc p.p p.n || (decide (via = .vector) && colBusy s r.who p.p p.n) || svfHolds s via k

/-- Another hart of the context waits in SPTSW, so that this hart stalls at its next memory access; what its vector queue
and its engines have begun goes on, and nothing joins the queue meanwhile (R180). An instruction fetch is not held (log
75). -/
def sptHeld (s : State) (via : Via) (k : AKind) : Bool :=
  match s.agent with
  | .hart h => decide (k ≠ .exec) && decide (via ≠ .copy) && sptWaits s h
  | .queue _ => false
  | .mseq _ => false
  | .cseq _ => false

/-- The lines of the unbacked ranges of a unit that are not present, counted by their current stacks, fit below the
reservations range by range; the first range that does not is given (R365). -/
def roomUb (s : State) (cid : Nat) : List Piece → List Nat → Option W
  | [], _ => none
  | p :: l, new =>
    if !p.acc.ub then roomUb s cid l new
    else
      let c := s.ctx cid
      let st := c.curStack p.acc.pa
      let add := (linesOf p.acc.pa p.n).filter (fun l => (c.ubAt l).isNone && !new.contains l)
      let all := new ++ add
      if !add.isEmpty && decide (tget 0 c.ubres st < c.used st + (all.filter (fun l => c.curStack (l * 128) == st)).length)
      then some p.va
      else roomUb s cid l all

/-- A checked range is served: it uses the gap of a computing bank (R337), unbacked lines are touched, and a line of memory
that slices cache may drive an unbacked one out, in the slices of its home stack, for a lattice line that of the local replica
(R27, R352, R365, R366). -/
def touchPiece (r : Rq) (p : Piece) : X Unit := do
  modify (fun s => takeGaps s r.who p.acc p.p p.n)
  let s ← get
  if p.acc.ub then eachOf (touchUb r.cid) (linesOf p.acc.pa p.n)
  else
    match p.p with
    | .dram _ _ =>
      let a := if p.acc.lt = 0 then p.acc.pa else homeAddr p.acc p.p
      eachOf (fun l => conflictX (homeStack s p.acc p.p) l none r.cid) (linesOf a p.n)
    | .ext a => if extHost s a then eachOf (fun l => conflictX r.stack l none r.cid) (linesOf a p.n)
    | _ => pure ()

/-- The precise faults of one unit's ranges that need no home, in order: translation, permission, misalignment (R155, R156,
R213, R216); then the ranges, checked. -/
def checkWants (r : Rq) (via : Via) (k : AKind) (l : List Want) : X (List Piece) := do
  let ps ← resolveAll r via k l
  eachOf (fun e => alignCheck k e.1 e.2) (l.zip ps)
  return ps

/-- The checked ranges of a unit wait: for SPTSW, at a home, or behind an SVF (R168, R180, R263, R337). -/
def piecesHeld (s : State) (r : Rq) (via : Via) (k : AKind) (ps : List Piece) : Bool :=
  sptHeld s via k || ps.any (pieceHeld s r via k)

/-- The checked ranges of a unit that waits begin to wait for the gaps that they need (R337). -/
def askPieces (r : Rq) (ps : List Piece) : X Unit :=
  modify (fun s => ps.foldl (fun s p => askGaps s r.who p.acc p.p p.n) s)

/-- The capacity fault of the checked ranges of a unit, else they are served (R365). -/
def servePieces (r : Rq) (ps : List Piece) : X Unit := do
  let s ← get
  match roomUb s r.cid ps [] with
  | some va => trap cCAPACITY va
  | none => pure ()
  eachOf (touchPiece r) ps

/-- The precise faults of one unit with its ranges, in order: translation, permission, misalignment, capacity (R155, R156,
R213, R216, R365); then its ranges, checked. Nothing is allocated where one of them faults or waits. -/
def accessWants (r : Rq) (via : Via) (k : AKind) (l : List Want) : X (List Piece) := do
  let ps ← checkWants r via k l
  let s ← get
  if piecesHeld s r via k ps then
    askPieces r ps
    stall
  servePieces r ps
  return ps

/-- The precise faults of an access of `n` bytes that must lie at a multiple of `al`, in order, and its place (R155,
R156, R213, R216). -/
def access (r : Rq) (via : Via) (k : AKind) (u : UnitRule) (al : Nat) (va : W) (n : Nat) : X (Acc × Place) := do
  match ← accessWants r via k [{ va := va, n := n, al := al, u := u }] with
  | p :: _ => return (p.acc, p.p)
  | [] => stall

/-- The physical address that a record names: in a lattice region that of the local replica (R351, R400). -/
def recordPa (acc : Acc) : Nat :=
  if acc.lt = 0 then acc.pa else acc.pa - linStack acc.pa * 2 ^ 36 + acc.from_ * 2 ^ 36

/-- A refusal leaves its home for the core, under the number of its store instruction (R155, R214, R400); its index in the
state is fresh. -/
def postRefusal (s : State) (h : Nat) (acc : Acc) (off elem cause : Nat) : State :=
  { s with refusals := tins (tdel s.refusals s.fresh) s.fresh
             { home := homeFor s acc (placeOf s.sdp acc.pa) true, group := storeNo s acc.via, hart := h, live := (s.hart h).live,
               va := acc.va + off, pa := recordPa acc + off, cid := acc.cid,
               elem := elem, cause := cause }
           fresh := s.fresh + 1 }

/-- Refusals of one access, in ascending order (R400). -/
def postRefusals (h : Nat) (acc : Acc) (elem : Nat) : List (Nat × Nat) → State → State
  | [], s => s
  | e :: r, s => postRefusals h acc elem r (postRefusal s h acc e.1 elem e.2)

/-- A refusal reaches its core: a record is queued, or counted as lost when 64 are held, and the trap is pending for
the hart while it lives (R392, R400, R405); a context that has ended takes none (R401). -/
def postRecord (s : State) (x : Refused) : State :=
  if !x.live && !s.usesCtx x.cid then s
  else
  let core := coreOf x.hart
  let c := s.core core
  let full := decide (64 ≤ c.sfrq.length)
  let crew := fld (s.hart x.hart).crewid 3 2
  let rec_ : SfRec := { va := x.va % 2 ^ 64, pa := x.pa % 2 ^ 48, cid := x.cid, elem := x.elem, cause := x.cause,
                        dlv := false, crew := if x.live then crew else coreOf x.hart % 4, hart := x.hart % 8
                        ended := !x.live }
  let s1 := s.setCore core (if full then { c with lost := tput 0 c.lost x.cid (tget 0 c.lost x.cid + 1) }
    else { c with sfrq := c.sfrq ++ [rec_] })
  if x.live then
    s1.modHart x.hart (fun y => { y with pend := y.pend ++ [{ cause := x.cause, va := x.va, queued := !full }] })
  else s1

/-- Every refusal of a hart that is on its way is posted (R169). -/
def postAll (s : State) (h : Nat) : State :=
  (s.refusals.filter (fun e => e.2.hart == h)).foldl
    (fun s e => postRecord { s with refusals := tdel s.refusals e.1 } e.2) s

/-- Number of an agent among the writers of R262. -/
def whoOf (s : State) : Nat :=
  match s.agent with
  | .hart h => h
  | .queue h => h
  | .mseq c => 512 + c
  | .cseq c => 576 + c

/-- The level of the agent: a sequencer's is its owner's at the FORK (R244, R383, log 34). -/
def levelOf (s : State) : Level :=
  match s.agent with
  | .hart h => (s.hart h).level
  | .queue h => (s.hart h).level
  | .mseq c => (s.core c).mseq.level
  | .cseq c => (s.core c).cseq.level

/-- The requester that the agent is (R237, R288). -/
def myRq : X Rq := do
  let s ← get
  let h := s.hart (agentHart s)
  return { cid := h.cid, stack := coreStack (agentCore s), lvl := levelOf s, who := whoOf s }

/-- The hart to which refusals of the agent's stores are posted: a sequencer's owner (R288). -/
def myNo : X Nat := me

/-- The routers on the way to a home and back report what they drop (R36). -/
def noteWay (stack home : Nat) : X Unit := modify (fun s => logReach s stack home)

/-- A load of `n` bytes through a port, after its checks: the value, or the poison trap (R155, R213, R240). -/
def loadAt (r : Rq) (acc : Acc) (p : Place) (va : W) (n : Nat) : X Nat := do
  let s ← get
  match reach s r.stack (homeStack s acc p) with
  | .held => stall
  | .unreached =>
    noteWay r.stack (homeStack s acc p)
    trap cPOISON va
  | .unanswered =>
    noteWay r.stack (homeStack s acc p)
    trap cPOISON va
  | .ok =>
    let a := homeRead s acc p n
    set a.2
    if a.1.2 then trap cPOISON va
    return a.1.1

/-- A store of `n` bytes after its checks; each refused unit posts its record with element `elem` (R155, R214, R248). -/
def storeAt (r : Rq) (h : Nat) (acc : Acc) (p : Place) (n x elem : Nat) (cov : Cov) : X Unit := do
  let s ← get
  let home := homeFor s acc p true
  match reach s r.stack home with
  | .held => stall
  | .unreached => set (postRefusal (logReach s r.stack home) h acc 0 elem cREMOTE)
  | .unanswered =>
    set (postRefusal (logReach (homeWrite s acc p n x r.who cov).1 r.stack home) h acc 0 elem cREMOTE)
  | .ok =>
    let a := homeWrite s acc p n x r.who cov
    set (postRefusals h acc elem a.2 a.1)

/-- Every access that the hart has on the fabric has been answered; otherwise it waits. Its window writes to registers are
performed then (R160, R165, R169, R238). -/
def needPosted : X Unit := do
  let s ← get
  if s.reqs.any (fun e => e.2.src == agentHart s) && !s.agent.isSeq then stall
  modify (flushParts (fun w => w.who == whoOf s))

/-- The hart's earlier accesses have been performed, those of its vector queue and its Col entries too: what a release of
all of them waits for (R169, R267, R309 to R311). -/
def needAll : X Unit := do
  let s ← get
  match s.agent with
  | .hart h =>
    if !(s.hart h).vq.isEmpty then stall
    if (s.hart h).colPend ≠ 0 then stall
  | .queue h => if (s.hart h).colPend ≠ 0 then stall
  | .mseq _ => pure ()
  | .cseq _ => pure ()
  needPosted

/-- Stores the ranges of one unit, all of it or none: none where every home accepts, else the cause of the first refusal
(R213, R214, R220, R285). -/
def storeParts (r : Rq) (cov : Cov) (ps : List (Piece × Nat)) : X (Option Nat) := do
  let s ← get
  let home (e : Piece × Nat) : Nat := homeFor s e.1.acc e.1.p true
  let way (e : Piece × Nat) : Reach := reach s r.stack (home e)
  let put (s : State) (e : Piece × Nat) : State × List (Nat × Nat) := homeWrite s e.1.acc e.1.p e.1.n e.2 r.who cov
  let why (e : Piece × Nat) : Option Nat :=
    if way e = .unreached then some cREMOTE else (put s e).2.head?.map (·.2)
  if ps.any (fun e => way e = .held) then stall
  eachOf (fun e => noteWay r.stack (home e)) (ps.filter (fun e => way e ≠ .ok))
  match ps.find? (fun e => (why e).isSome) with
  | some e =>
    if way e ≠ .unreached then modify (fun u => (put u e).1)
    return why e
  | none =>
    eachOf (fun e => modify (fun u => (put u e).1)) ps
    return (if ps.any (fun e => way e = .unanswered) then some cREMOTE else none)

/-- An accepted store to a lattice region is a join, and so a release of the hart's earlier accesses (R267). -/
def joinFirst (ps : List Piece) : X Unit := if ps.any (fun p => p.acc.lt != 0) then needAll else pure ()

/-- The ranges of a range of bytes, cut where a 128-byte line ends; the first argument bounds their number. -/
def piecesFrom : Nat → W → Nat → List (W × Nat)
  | 0, _, _ => []
  | k + 1, va, n =>
    let m := 128 - va.toNat % 128
    if n = 0 then [] else if n ≤ m then [(va, n)] else (va, m) :: piecesFrom k (va + wd m) (n - m)

/-- The ranges of `n` bytes from an address, cut where a 128-byte line ends. -/
def piecesOf (va : W) (n : Nat) : List (W × Nat) := piecesFrom (n / 128 + 2) va n

/-- Ranges that ask for the same. -/
def wants (u : UnitRule) (al : Nat) (l : List (W × Nat)) : List Want :=
  l.map (fun e => { va := e.1, n := e.2, al := al, u := u })

/-- The precise faults of the ranges of one unit that ask for the same (R213). -/
def accessAll (r : Rq) (via : Via) (k : AKind) (u : UnitRule) (al : Nat) (l : List (W × Nat)) : X (List Piece) :=
  accessWants r via k (wants u al l)

/-- The translation and permission faults of the ranges of one unit come before any later check, as R213 orders them (R281,
R285); `plain` refuses a lattice region. -/
def precheck (r : Rq) (via : Via) (k : AKind) (plain : Bool) (l : List (W × Nat)) : X Unit := do
  let s ← get
  let one (e : W × Nat) : Except Stop (Acc × Place) := match (resolve s r via k e.1 e.2).1 with
    | .error x => .error x
    | .ok a => if plain && a.1.lt != 0 then .error (.trap cPERM e.1 0) else .ok a
  match unitFault (l.map one) with
  | some x => throw x
  | none => pure ()

/-- The bytes of checked ranges as one little-endian number; poison in any of them traps with the address of the access
(R213, log 102). -/
def loadAll (r : Rq) (va : W) : List Piece → X Nat
  | [] => pure 0
  | e :: l => do
    let x ← loadAt r e.acc e.p va e.n
    let rest ← loadAll r va l
    return x + 2 ^ (8 * e.n) * rest

/-- A load that may cross a line. -/
def loadUnit (r : Rq) (via : Via) (u : UnitRule) (al : Nat) (va : W) (n : Nat) : X Nat := do
  let ps ← accessAll r via .read u al (piecesOf va n)
  loadAll r va ps

/-- The coverage of a store whose bytes are these (R240, R248, log 26). -/
def Cov.of (spans : List (Nat × Nat)) : Cov :=
  let parts := (spans.flatMap (fun e => partsOf e.1 e.2)).eraseDups
  let lines := (spans.flatMap (fun e => linesOf e.1 e.2)).eraseDups
  let bytes := spans.flatMap (fun e => upto e.1 e.2)
  { lines := lines.filter (fun l => (upto (l * 128) 128).all bytes.contains)
    parts := parts.filter (fun p => (upto (p * 16) 16).all bytes.contains) }

/-- Every STL that the hart has on the fabric has been answered: it counts as a read, too (R165). -/
def needReads : X Unit := do
  let s ← get
  let both (i : Instr) : Bool := match encode i with
    | none => false
    | some e => e.op == 0x4F
  if s.reqs.any (fun e => e.2.src == agentHart s && both e.2.instr) && !s.agent.isSeq then stall

/-- No access that the hart has on the fabric overlaps these bytes; otherwise it waits (R158). -/
def needApart (acc : Acc) (n : Nat) : X Unit := do
  let s ← get
  if s.reqs.any (fun e => e.2.src == agentHart s && e.2.acc.cid == acc.cid && decide (e.2.acc.pa < acc.pa + n) &&
      decide (acc.pa < e.2.acc.pa + e.2.n)) && !s.agent.isSeq then stall

/-- A packet enters the mesh at its source under the route entry in force; one for its own stack is there, whatever that
entry holds (R35, log 69). -/
def FReq.inject (s : State) (src dst : Nat) (q : FReq) : FReq :=
  let e := ((s.stack src).route src dst).toNat
  { q with router := src, hops := e / 2 ^ 28, turns := e % 2 ^ 24, came := none, here := decide (src = dst), lost := false
           entry := e, stamp := s.fresh }

/-- Puts an access of the hart onto the fabric, with the next number of its source (R252), towards the home that it has now;
its index is fresh. One made while a port's link is down meets the link down, whatever happens later (R253, R425). -/
def sendReq (s : State) (h : Nat) (i : Instr) (acc : Acc) (p : Place) (n : Nat) (op : HomeOp) : State :=
  let q : FReq :=
    { src := h, live := true, seq := tget 0 s.seqNo h, acc := acc, n := n, op := op, home := homeFor s acc p op.writes, instr := i
      pc := (s.hart h).pc, phase := .out
      router := 0, hops := 0, turns := 0, came := none, here := false, tries := 0, sentAt := s.clock
      resp := { val := 0, poison := false, deny := false, refused := [] }, lost := false, entry := 0, stamp := 0
      cut := match p with
        | .ext a => decide (linkPhase s a ≠ 0)
        | _ => false }
  { s with reqs := tins (tdel s.reqs s.fresh) s.fresh (q.inject s (stackOf h) q.home)
           seqNo := tput 0 s.seqNo h (tget 0 s.seqNo h + 1), fresh := s.fresh + 1 }

/-- An access of which the hart waits for the answer goes onto the fabric where the step says so (log 4). -/
def postAndWait (acc : Acc) (p : Place) (n : Nat) (op : HomeOp) : X Unit := do
  let s ← get
  match s.posting, s.agent with
  | some i, .hart h =>
    set ((sendReq s h i acc p n op).modHart h (fun x => { x with await := some s.fresh }))
    stall
  | _, _ => pure ()

/-- The answer that the agent's instruction waited for, which it takes now. -/
def landed : X (Option HomeResp) := do
  let s ← get
  match s.agent with
  | .hart h =>
    match (s.hart h).await with
    | none => return none
    | some r =>
      set ({ s with reqs := tdel s.reqs r }.modHart h (fun x => { x with await := none }))
      return ((s.reqs.find? (fun e => e.1 == r)).map (·.2.resp))
  | _ => return none

/-- A scalar load of `n` bytes (R155). -/
def scalarLoad (va : W) (n : Nat) : X Nat := do
  match ← landed with
  | some v =>
    if v.poison then trap cPOISON va
    return v.val
  | none => pure ()
  if va.toNat % n ≠ 0 then trap cMISALIGN va
  let r ← myRq
  let a ← access r .scalar .read .whole 1 va n
  needApart a.1 n
  postAndWait a.1 a.2 n .read
  loadAt r a.1 a.2 va n

/-- A scalar store of `n` bytes (R155); an accepted store to a lattice region is a join, and so a release of the hart's
earlier accesses (R267). -/
def scalarStore (va : W) (n x : Nat) : X Unit := do
  if va.toNat % n ≠ 0 then trap cMISALIGN va
  let r ← myRq
  let h ← myNo
  let a ← access r .scalar .write .whole 1 va n
  joinFirst [{ va := va, n := n, acc := a.1, p := a.2 }]
  needApart a.1 n
  let s ← get
  match s.posting, s.agent with
  | some i, .hart g => set (sendReq s g i a.1 a.2 n (.write x))
  | _, _ => storeAt r h a.1 a.2 n x 0 (covOf (homeAddr a.1 a.2) n)

/-- What an atomic does with the old value; none leaves memory as it was (R161, R162). -/
def homeOp (op : HomeOp) (n old : Nat) : Option Nat :=
  match op with
  | .read => none
  | .write x => some x
  | .cas e w => if old = e then some w else none
  | .amo f b =>
    let w := 8 * n
    some (match f with
      | .add => (old + b) % 2 ^ w
      | .and => old &&& b
      | .or => old ||| b
      | .xor => old ^^^ b
      | .min => if sInt w b < sInt w old then b else old
      | .max => if sInt w old < sInt w b then b else old
      | .swap => b)

/-- A peer turns away or cannot perform what is asked of it at a place (R163). -/
def extDenies (s : State) (p : Place) : Bool :=
  match p with
  | .ext a => peerDenies s a
  | _ => false

/-- The home performs an atomic: a peer may refuse it; the key first, then poison, which leaves memory as it was (R163, R183,
log 61). -/
def homeAmo (s : State) (acc : Acc) (p : Place) (n : Nat) (op : HomeOp) (who : Nat) : HomeResp × State :=
  let a := homeAddr acc p
  let r (v : Nat) (bad deny : Bool) : HomeResp := { val := v, poison := bad, deny := deny, refused := [] }
  let s0 := touchAmo s acc p n
  if extDenies s p || (isDram acc p && tget 0 s.keyIds (a / 128) != acc.key) then (r 0 false true, s0)
  else
    let v := amoRead s0 acc p n
    if v.1.2 then (r 0 true false, v.2)
    else match homeOp op n v.1.1 with
      | none => (r v.1.1 false false, v.2)
      | some x => (r v.1.1 false false, amoWrite v.2 acc p n x who (covOf a n))

/-- An atomic at its home, after its precise checks: a key mismatch and an unreachable home take a permission fault,
poison a poison trap with memory unchanged (R163, R183). -/
def atomicAt (r : Rq) (acc : Acc) (p : Place) (va : W) (n : Nat) (op : HomeOp) : X Nat := do
  let s ← get
  let home := homeFor s acc p true
  match reach s r.stack home with
  | .held => stall
  | .unreached =>
    noteWay r.stack home
    trap cPERM va
  | w =>
    if w ≠ .ok then noteWay r.stack home
    let v := homeAmo (← get) acc p n op r.who
    set v.2
    if v.1.deny || decide (w ≠ .ok) then trap cPERM va
    if v.1.poison then trap cPOISON va
    return v.1.val

/-- An atomic of R161 and R162. -/
def atomic (va : W) (n : Nat) (op : HomeOp) : X Nat := do
  match ← landed with
  | some v =>
    if v.deny then trap cPERM va
    if v.poison then trap cPOISON va
    return v.val
  | none => pure ()
  if va.toNat % n ≠ 0 then trap cMISALIGN va
  let r ← myRq
  let a ← access r .scalar .amo .any 1 va n
  needPosted
  postAndWait a.1 a.2 n op
  atomicAt r a.1 a.2 va n op

end Sys2Proof.Machine
end

