-- ==== Sys2Proof/Machine/Operands.lean ====
section
/-! DEFINITION. Operand forms: scalar immediates and pairs (R82, R153), and the vector context of an instruction with
its groups, elements, masks and second operand (R60, R106, R186 to R188, R196, R197). -/
namespace Sys2Proof.Machine

/-- The sign-extended 10-bit immediate of a T2 tail (R82). -/
def imm10 (i : BitVec 10) : W := i.signExtend 64
/-- The sign-extended 32-bit immediate of a T3 tail (R82). -/
def imm32 (i : BitVec 32) : W := i.signExtend 64
/-- The sign-extended 26-bit immediate of a T2I tail (R82). -/
def imm26 (i : BitVec 26) : W := i.signExtend 64
/-- The sign-extended 16-bit offset of a vector memory T3 tail (R209). -/
def imm16 (i : BitVec 16) : W := i.signExtend 64

/-- The register after `n`: the high half of a pair whose lower register is even (R153). -/
def nextReg (n : SReg) : SReg := ⟨(n.val + 1) % 64, Nat.mod_lt _ (by decide)⟩

/-- The pair of registers from an even one, low doubleword first (R153). -/
def rdPair (n : SReg) : X Nat := do
  let a ← rd n
  let b ← rd (nextReg n)
  return a.toNat + 2 ^ 64 * b.toNat

/-- Writes a pair of registers. -/
def wrPair (n : SReg) (x : Nat) : X Unit := do
  wr n (wd x)
  wr (nextReg n) (wd (x / 2 ^ 64))

/-- What a vector-queue or sequencer instruction runs under: VTYPE, VL, MFC and FXRM as taken at issue or at FORK, and the
hart whose registers it uses (R110, R288); `no` its number among the hart's vector instructions (log 62); `stop` ends its
elements: VL, or where `cut` holds the element at which the drain deadline cuts it (R67). -/
structure VCtx where
  h : Nat
  vtype : W
  vl : Nat
  mfc : W
  fxrm : Nat
  seq : Bool
  pc : W
  no : Nat
  stop : Nat
  cut : Bool
deriving DecidableEq, Repr

/-- The element at which the drain deadline cuts the instruction of the agent (R67). -/
def cutOf (s : State) : Option Nat :=
  match s.agent, s.cutAt with
  | .queue h, some (k, n) => if h = k then some n else none
  | _, _ => none

/-- The vector context of a state's agent. -/
def vctxOf (s : State) : VCtx :=
  let ofHart (h : Nat) : VCtx :=
    let x := s.hart h
    { h := h, vtype := x.vtype, vl := x.vl.toNat, mfc := x.mfc, fxrm := fld x.fxrm 0 2, seq := false, pc := x.pc,
      no := x.vecNo, stop := x.vl.toNat, cut := false }
  let ofSeq (q : Seq) : VCtx :=
    { h := q.owner, vtype := q.vtype, vl := q.vl.toNat, mfc := q.mfc, fxrm := fld q.fxrm 0 2, seq := true,
      pc := q.pc, no := 0, stop := q.vl.toNat, cut := false }
  match s.agent with
  | .hart h => ofHart h
  | .queue h =>
    match (s.hart h).vq with
    | [] => ofHart h
    | e :: _ =>
      let vl := e.vl.toNat
      let cut := match cutOf s with
        | none => vl
        | some n => Nat.min n vl
      { h := h, vtype := e.vtype, vl := vl, mfc := e.mfc, fxrm := fld e.fxrm 0 2, seq := false, pc := e.pc,
        no := e.no, stop := cut, cut := decide (cut < vl) }
  | .mseq c => ofSeq (s.core c).mseq
  | .cseq c => ofSeq (s.core c).cseq

/-- The vector context of the agent. -/
def vctx : X VCtx := do return vctxOf (← get)

/-- SEW in bits (R87). -/
def VCtx.sew (c : VCtx) : Nat := 8 * 2 ^ fld c.vtype 0 3
/-- LMUL (R87). -/
def VCtx.lmul (c : VCtx) : Nat := 2 ^ fld c.vtype 3 3
/-- VTYPE.FZ (R87). -/
def VCtx.fz (c : VCtx) : Nat := fld c.vtype 6 2
/-- VTYPE.ILL (R87). -/
def VCtx.ill (c : VCtx) : Bool := bit c.vtype 63
/-- MFC.RM (R108). -/
def VCtx.rm (c : VCtx) : Nat := fld c.mfc 15 3
/-- MFC.LFMT (R108). -/
def VCtx.lfmt (c : VCtx) : Nat := fld c.mfc 0 5
/-- MFC.SFMT (R108). -/
def VCtx.sfmt (c : VCtx) : Nat := fld c.mfc 5 5
/-- MFC.OTH (R108). -/
def VCtx.oth (c : VCtx) : Nat := fld c.mfc 18 2
/-- MFC.ROWLEN (R108). -/
def VCtx.rowlen (c : VCtx) : Nat := fld c.mfc 48 16

/-- The VILL trap (R88). -/
def vill {α : Type} (c : VCtx) : X α := trap cVILL c.vtype

/-- CheckVType of R106. -/
def checkVType (c : VCtx) : X Unit := if c.ill then vill c else pure ()

/-- A group base is a multiple of its group size, else the illegal-instruction trap (R86, R188). -/
def groupOk (g base : Nat) : Bool := base % g == 0

/-- An operand of a vector instruction: first register, element width in bits, and group size (R188). -/
structure Grp where
  base : Nat
  eew : Nat
  g : Nat
deriving DecidableEq, Repr

/-- Two groups share a register (R190). -/
def Grp.overlaps (a b : Grp) : Bool := decide (a.base < b.base + b.g) && decide (b.base < a.base + a.g)

/-- A normal operand (R188). -/
def VCtx.grp (c : VCtx) (r : VReg) : Grp := { base := r.val, eew := c.sew, g := c.lmul }
/-- A wide operand (R188). -/
def VCtx.wide (c : VCtx) (r : VReg) : Grp := { base := r.val, eew := 2 * c.sew, g := 2 * c.lmul }
/-- The size of an index group (R188). -/
def VCtx.idxG (c : VCtx) : Nat := if c.lmul * 32 / c.sew = 0 then 1 else c.lmul * 32 / c.sew
/-- An index operand (R188). -/
def VCtx.index (c : VCtx) (r : VReg) : Grp := { base := r.val, eew := 32, g := c.idxG }

/-- The register and byte of element `i` of a group (R60). -/
def Grp.place (g : Grp) (i : Nat) : Nat × Nat := (g.base + i % g.g, i / g.g * (g.eew / 8))

/-- Element `i` of a group (R60, R106). -/
def Hart.elem (x : Hart) (g : Grp) (i : Nat) : Nat :=
  let p := g.place i
  leNat ((upto p.2 (g.eew / 8)).map (x.vbyte p.1))

/-- Writes bytes upward from byte `b` of a vector register. -/
def Hart.setVbytes (x : Hart) (n b : Nat) : List Byte → Hart
  | [] => x
  | y :: r => (x.setVbyte n b y).setVbytes n (b + 1) r

/-- Writes element `i` of a group (R60, R106). -/
def Hart.setElem (x : Hart) (g : Grp) (i v : Nat) : Hart :=
  let p := g.place i
  x.setVbytes p.1 p.2 (leBytes (g.eew / 8) v)

/-- Reads an element of the hart of a context. -/
def velem (c : VCtx) (g : Grp) (i : Nat) : X Nat := do return ((← get).hart c.h).elem g i
/-- The group of a stream binding (R221). -/
def Stream.grp (base : Nat) (t : Stream) : Grp := { base := base, eew := 8 * 2 ^ t.sew, g := 2 ^ t.lm }
/-- Ends the bindings whose group holds register `n` (R224). -/
def Hart.unbind (x : Hart) (n : Nat) : Hart :=
  { x with streams := x.streams.filter (fun e => !(decide (e.1 ≤ n) && decide (n < e.1 + 2 ^ e.2.lm))) }
/-- Writes an element of the hart of a context; a write to a register of a bound group ends the binding first
(R224). -/
def setVelem (c : VCtx) (g : Grp) (i v : Nat) : X Unit :=
  modify (fun s => s.modHart c.h (fun x => (x.unbind (g.place i).1).setElem g i v))
/-- K(n, i) of R106. -/
def kbitOf (c : VCtx) (k : KReg) (i : Nat) : X Bool := do return ((← get).hart c.h).kbit k.val i
/-- SetK of R106. -/
def setKbitOf (c : VCtx) (k : KReg) (i : Nat) (b : Bool) : X Unit :=
  modify (fun s => s.modHart c.h (fun x => x.setKbit k.val i b))
/-- MLEN of the hart of a context (R187). -/
def mlenOf (c : VCtx) : X Nat := do return ((← get).hart c.h).mlen

/-- The VILL trap of R187: VL above MLEN where the instruction reads a mask other than k0 or writes a mask. -/
def checkMask (c : VCtx) (uses : Bool) : X Unit := do
  if uses && decide ((← mlenOf c) < c.vl) then vill c

/-- The second operand as a group, where it is one (R197). -/
def VSrc.grp (c : VCtx) : VSrc → Option Grp
  | .v r => some (c.grp r)
  | .s _ => none
  | .i _ => none

/-- OperandB of R197 for element `i`: `zx` says whether I6 is zero-extended. -/
def operandB (c : VCtx) (zx : Bool) (b : VSrc) (i : Nat) : X Nat :=
  match b with
  | .v r => velem c (c.grp r) i
  | .s r => do return (← rd r).toNat % 2 ^ c.sew
  | .i x => pure (if zx then x.toNat else lowBits c.sew x.toInt)

/-- Raises the illegal-instruction trap unless a condition holds. -/
def need (i : Instr) (b : Bool) : X Unit := if b then pure () else illegal i

end Sys2Proof.Machine
end

