-- ==== Sys2Proof/Machine/Atomic.lean ====
section
/-! DEFINITION. The atomics (R161 to R163, R183, R184). -/
namespace Sys2Proof.Machine

/-- Bytes of an atomic with SZ (R161, R162). -/
def amoBytes (sz : Bool) : Nat := if sz then 8 else 4

/-- A read-modify-write atomic: D receives the old value, a word sign-extended (R161). -/
def amoX (i : Instr) (f : AmoOp) (d b a : SReg) (sz : Bool) (s : State) : Out :=
  scalarX i (do
    let n := amoBytes sz
    let x ← rd b
    let old ← atomic (← rd a) n (.amo f (x.toNat % 2 ^ (8 * n)))
    wr d (sext (8 * n) old)) s

/-- AMOADD (R161). -/
def execAmoadd (d b a : SReg) (sz : Bool) (sc : Scope) (s : State) : Out := amoX (.amoadd d b a sz sc) .add d b a sz s
/-- AMOAND (R161). -/
def execAmoand (d b a : SReg) (sz : Bool) (sc : Scope) (s : State) : Out := amoX (.amoand d b a sz sc) .and d b a sz s
/-- AMOOR (R161). -/
def execAmoor (d b a : SReg) (sz : Bool) (sc : Scope) (s : State) : Out := amoX (.amoor d b a sz sc) .or d b a sz s
/-- AMOXOR (R161). -/
def execAmoxor (d b a : SReg) (sz : Bool) (sc : Scope) (s : State) : Out := amoX (.amoxor d b a sz sc) .xor d b a sz s
/-- AMOMIN (R161). -/
def execAmomin (d b a : SReg) (sz : Bool) (sc : Scope) (s : State) : Out := amoX (.amomin d b a sz sc) .min d b a sz s
/-- AMOMAX (R161). -/
def execAmomax (d b a : SReg) (sz : Bool) (sc : Scope) (s : State) : Out := amoX (.amomax d b a sz sc) .max d b a sz s
/-- AMOSWAP (R161). -/
def execAmoswap (d b a : SReg) (sz : Bool) (sc : Scope) (s : State) : Out := amoX (.amoswap d b a sz sc) .swap d b a sz s
/-- AMOCAS (R162, R184). -/
def execAmocas (d b c a : SReg) (sz : Bool) (sc : Scope) (s : State) : Out :=
  scalarX (.amocas d b c a sz sc) (do
    let n := amoBytes sz
    let e ← rd b
    let w ← rd c
    let old ← atomic (← rd a) n (.cas (e.toNat % 2 ^ (8 * n)) (w.toNat % 2 ^ (8 * n)))
    wr d (sext (8 * n) old)) s
/-- AMOCASQ over a pair (R162, R184). -/
def execAmocasq (d b c a : SReg) (sc : Scope) (s : State) : Out :=
  scalarX (.amocasq d b c a sc) (do
    let e ← rdPair b
    let w ← rdPair c
    let old ← atomic (← rd a) 16 (.cas e w)
    wrPair d old) s

end Sys2Proof.Machine
end

