-- ==== Sys2Proof/Machine/Fetch.lean ====
section
/-! DEFINITION. Fetching and decoding the instruction of an agent (R77 to R81, R84, R95, R96), and the word that
`State.withFetchWord` stores. -/
namespace Sys2Proof.Machine

/-- The 64 bytes of a line at its home; a poisoned line reads as free values (log 13). -/
def lineAt (r : Rq) (acc : Acc) (p : Place) : X Nat := do
  let s ← get
  match reach s r.stack (homeStack s acc p) with
  | .held => stall
  | .unreached =>
    noteWay r.stack (homeStack s acc p)
    return leNat ((upto acc.va 64).map (Config.lostBits s.ticks))
  | .unanswered =>
    noteWay r.stack (homeStack s acc p)
    return leNat ((upto acc.va 64).map (Config.lostBits s.ticks))
  | .ok =>
    let a := homeRead s acc p 64
    set a.2
    return if a.1.2 then leNat ((upto acc.va 64).map (Config.lostBits s.ticks)) else a.1.1

/-- The line at a virtual address, translated for execution (R80, R96, R244). A fault of this access has the address of the
line in TVAL (log 70). -/
def fetchLine (r : Rq) (va : W) : X Nat := do
  let a ← access r .scalar .exec .whole 1 va 64
  lineAt r a.1 a.2

/-- The line that a hart executes: the stored one, or one that it already holds under this virtual address (R81, R170, log 13);
an XINV that remaps the address leaves the held one until an IFENCE (R179, log 13). -/
def hartLine (s : State) (h va now : Nat) : Nat × State :=
  match (s.hart h).ilines.find? (fun e => e.1 == va) with
  | some (_, held) =>
    if held = now then (now, s)
    else if Config.lineKeep s.ticks va then (held, s)
    else (now, s.modHart h (fun x => { x with ilines := tins (tdel x.ilines va) va now }))
  | none => (now, s.modHart h (fun x => { x with ilines := tins x.ilines va now }))

/-- The instruction in a slot of a line: the line-format fault of R80 and R85 and the illegal-instruction trap of R95
before it (R96). A program counter that names no slot takes the line-format fault as a target above NH does (log 28). -/
def lineInstr (line : Nat) (pc : W) : Except (Nat × W) Instr :=
  if !lineOk line then .error (cLINE, lineOf pc)
  else if slotOf pc = 0 ∨ lineNH line < slotOf pc ∨ pc.toNat % 2 = 1 then .error (cLINE, pc)
  else
    let e := lineEnc line (slotOf pc)
    match decodeEnc e with
    | none => .error (cILL, wd (e.head + e.tail * 65536))
    | some i => .ok i

/-- Fetches and decodes the next instruction of a hart; NH of its line is kept for NextPC (R84). -/
def fetchHart (h : Nat) : X Instr := do
  let r ← myRq
  let pc := ((← get).hart h).pc
  let now ← fetchLine r (lineOf pc)
  let s ← get
  let l := hartLine s h (lineOf pc).toNat now
  set (l.2.modHart h (fun x => { x with nh := lineNH l.1 }))
  match lineInstr l.1 pc with
  | .error e => trap e.1 e.2
  | .ok i => return i

/-- Fetches and decodes the next instruction of a sequencer (R58): always from the stored line, since a sequencer has no IFENCE
to drop a held one (R81, R170, log 85). -/
def fetchSeq (matrix : Bool) (c : Nat) : X Instr := do
  let r ← myRq
  let pc := (((← get).core c).seq matrix).pc
  let now ← fetchLine r (lineOf pc)
  modify (fun s => s.modCore c (fun k => k.modSeq matrix (fun q => { q with nh := lineNH now })))
  match lineInstr now pc with
  | .error e => trap e.1 e.2
  | .ok i => return i

/-- The instruction of an agent with the state its fetch leaves, or what its fetch meets (R80, R95). -/
def fetchAgent (s : State) : Except Out (Instr × State) :=
  let go (m : X Instr) : Except Out (Instr × State) :=
    match m.run s with
    | .ok i t => .ok (i, t)
    | .error (.trap c v _) t => .error (.next (raise t .nop false c v 0))
    | .error .stall t => .error (.next t)
    | .error (.cut _) t => .error (.next t)
    | .error (.fatal c v) t => .error (.next (removeContext t (t.hart (agentHart t)).cid c v))
    | .error (.fault f) _ => .error (.fault f)
  match s.agent with
  | .hart h => go (fetchHart h)
  | .queue h => go (fetchHart h)
  | .mseq c => go (fetchSeq true c)
  | .cseq c => go (fetchSeq false c)

/-- The line that holds one instruction, as bytes from the lowest address (R77 to R79). -/
def wordLine (nbits w : Nat) : List Byte := leBytes 64 (oneLine (tableEnc nbits w))

/-- Where `withFetchWord` puts the line. -/
def wordAt : Nat := 0x4000

/-- The root and the next table of the scalar tables that `withFetchWord` puts in memory: the lowest 512 GiB map to
themselves, for node level, with every permission (R244). -/
def wordTables (s : State) : State :=
  (s.putNat 0x1000 8 (0x2000 / 4096 * 1024 + 1)).putNat 0x2000 8 0xDF

/-- A part in READY with one context, one band of one hart on hart 0 and one page of tables, so that hart 0 fetches
next at `wordAt` + 2 (log 7). -/
def wordState (s : State) : State :=
  let s1 := (wordTables s).modCtx 1 (fun c => { c with installed := true, spt := 0xA000000000000001#64 })
  let s2 := s1.setBand 0 { node := 0, stack := 0, cid := 1, phase := .running, crews := [[0]], killed := [], markers := [],
                           slots := [], reserved := 0, reclaimAt := none, incoming := none, preemptAt := 0, drained := [] }
  let s3 := s2.modHart 0 (fun x => { x with live := true, cid := 1, band := 0, pc := wd (wordAt + 2), crewid := 0x100#64,
                                            bandid := 1#64 })
  { s3.modCore 0 (fun c => { c with resident := some 1 }) with
    life := .ready, fresh := 1, agent := .hart 0, sched := [] }

end Sys2Proof.Machine
end

