-- ==== Sys2Proof/Machine/Boundary.lean ====
section
/-! DEFINITION. What happens between instructions (R141, R390 to R394, R402): who may run, deliveries, and the turns of
the vector queue. -/
namespace Sys2Proof.Machine

/-- Number of a hart's marker in its band (R67, R397). -/
def markerOf (h : Nat) : Nat := coreOf h % 4 * 10 + h % 8
/-- Number of the marker of a core's sequencer: the matrix sequencer's, then the copy sequencer's. -/
def seqMarker (core : Nat) (matrix : Bool) : Nat := core % 4 * 10 + (if matrix then 8 else 9)

/-- The phase of a hart's band; an ended one where it has none. -/
def hartPhase (s : State) (h : Nat) : BPhase :=
  match s.band? (s.hart h).band with
  | none => .ended
  | some b => b.phase

/-- The markers of a band not yet returned (R67). -/
def hartMarkers (s : State) (h : Nat) : List Nat :=
  match s.band? (s.hart h).band with
  | none => []
  | some b => b.markers

/-- The part runs programs and the stack is not halted (R402, R421). -/
def stackRuns (s : State) (stack : Nat) : Bool := decide (s.life = .ready) && !(s.stack stack).halted

/-- A core's agents may run: its stack runs and its island is not gated (R40, R402). What the registers and the scratchpad
of a gated core hold stays, and its homes serve accesses to the scratchpad (log 65). -/
def coreRuns (s : State) (core : Nat) : Bool := stackRuns s (coreStack core) && !tget false s.gated core

/-- The removal of a hart's context waits for a debug halt to end (R403). -/
def leaving (s : State) (h : Nat) : Bool := (s.ctx (s.hart h).cid).removing.isSome

/-- The hart's scalar stream may issue: its band runs, or is stopping while the hart is at M or completes an
instruction (R67, R394, R402). -/
def hartRuns (s : State) (h : Nat) : Bool :=
  let x := s.hart h
  coreRuns s (coreOf h) && x.live && !leaving s h &&
    match hartPhase s h with
    | .running => true
    | .stopping => decide (x.level = .m) || x.await.isSome
    | .pending => false
    | .saving => false
    | .suspended => false
    | .restoring => false
    | .ended => false

/-- The drain deadline has stopped the hart's queue, and no instruction of it is still to stop (R67). -/
def queueStopped (s : State) (h : Nat) : Bool :=
  match s.band? (s.hart h).band with
  | none => false
  | some b => b.drained.contains h && !(s.cutAt.any (fun c => c.1 == h))

/-- The hart's vector queue may execute: also while its marker is out, until the drain deadline (R67). -/
def queueRuns (s : State) (h : Nat) : Bool :=
  coreRuns s (coreOf h) && (s.hart h).live && !(s.hart h).owed && !leaving s h &&
    match hartPhase s h with
    | .running => true
    | .stopping => (hartMarkers s h).contains (markerOf h) && !queueStopped s h
    | .pending => false
    | .saving => false
    | .suspended => false
    | .restoring => false
    | .ended => false

/-- The matrix sequencer of a core is within an instruction: an MST with window writes that wait (R238, R260). -/
def inMatrix (s : State) (core : Nat) : Bool :=
  decide ((s.core core).mseq.phase = .running) && decide ((s.core core).mseq.tidx ≠ 0)

/-- A sequencer may run: it was forked and its owner's band runs, or stops while the matrix sequencer completes its current
instruction (R58, R67). -/
def seqRuns (s : State) (matrix : Bool) (core : Nat) : Bool :=
  let q := (s.core core).seq matrix
  coreRuns s core && decide (q.phase = .running) && (s.hart q.owner).live && !leaving s q.owner &&
    match hartPhase s q.owner with
    | .running => true
    | .stopping => matrix && inMatrix s core && (hartMarkers s q.owner).contains (seqMarker core true)
    | .pending => false
    | .saving => false
    | .suspended => false
    | .restoring => false
    | .ended => false

/-- A refusal that a record reports is delivered (R392, R400). -/
def markDelivered (x : Hart) (h : Nat) (r : SfRec) : SfRec :=
  if r.hart = h % 8 ∧ r.cid = x.cid ∧ !r.dlv ∧ !r.ended ∧ x.pend.any (fun p => p.queued && p.va % 2 ^ 64 == r.va && p.cause == r.cause)
  then { r with dlv := true } else r

/-- Imprecise delivery of R392; `img` is the queue image that the delivery turns into a trap queue image (R404). -/
def deliverImprecise (s : State) (h : Nat) (img : Option (List VEntry × W)) : State :=
  let x := s.hart h
  match x.pend with
  | [] => s
  | p :: _ =>
    let q := x.pend.find? (·.queued)
    let cause := match q with
      | none => p.cause
      | some r => r.cause
    let tval := match q with
      | none => 0
      | some r => wd r.va
    let s1 := s.modCore (coreOf h) (fun c => { c with sfrq := c.sfrq.map (markDelivered x h) })
    let s2 := s1.setHart h { x with pend := [], owed := false }
    match img with
    | some (e :: l, pc) => takeTrap s2 h cause tval false true (e.start.getD (fld x.tidx 0 18)) e.pc (some (e :: l, pc))
    | some ([], _) => takeTrap s2 h cause tval false true 0 x.pc none
    | none => takeTrap s2 h cause tval false true 0 x.pc none

/-- An interrupt (R393); IP stays set. -/
def deliverInterrupt (s : State) (h : Nat) : State := takeTrap s h cINT 0 true false 0 (s.hart h).pc none

/-- Deliveries may be taken: H = 0 and level N or S (R392, R393). -/
def Hart.open_ (x : Hart) : Bool := !x.inHandler && decide (x.level ≠ .m)

/-- An interrupt may be taken (R393). -/
def Hart.interrupted (x : Hart) : Bool := x.open_ && bit x.hstat 9 && bit x.hstat 8

/-- An event is due at the hart's next boundary (R341, R392, R393). -/
def Hart.due (x : Hart) : Bool := !x.lockTraps.isEmpty || (x.open_ && !x.pend.isEmpty) || x.interrupted

/-- The hart is stopped in WFI, which only an interrupt, a pre-emption or a debug halt ends (R177). -/
def Hart.inWfi (x : Hart) : Bool :=
  match x.wait with
  | none => false
  | some w => w.what == .wfi

/-- The first event of R394 at a boundary of the hart's scalar stream; a VRLOCK time-out is a precise trap and comes
before them (R341), the oldest first. None when the hart may issue. A VWAIT, LLDT or other instruction that waits without
having completed leaves its hart at the boundary before it: an event that is due there is taken, and the wait begins again
afterwards, with a fresh time-out and no element met (log 66). -/
def boundary (s : State) (h : Nat) : Option State :=
  let x := s.hart h
  if x.inWfi then none
  else match x.lockTraps with
  | e :: l => some (takeTrap (s.setHart h { x with lockTraps := l }) h cLOCK (wd e) false false 0 x.pc none)
  | [] =>
    if x.open_ && !x.pend.isEmpty then some (deliverImprecise s h none)
    else if x.interrupted then some (deliverInterrupt s h)
    else none

/-- An instruction of the vector queue (R195, R388). -/
def queued (i : Instr) : Bool :=
  match encode i with
  | none => false
  | some e => decide (0x60 ≤ e.op ∧ e.op ≤ 0xC9) || decide (e.op = 0xE5)

/-- The instruction that the head of a queue executes. -/
def queueHead (s : State) (h : Nat) : Option Instr := (s.hart h).vq.head?.map (·.instr)

/-- How the hart of a turn runs: as it comes, its vector instruction into the queue, ahead of its queue, or with its
access onto the fabric. -/
inductive Mode where
  | plain | defer | ahead | post
deriving DecidableEq, Repr

/-- A queued instruction of the hart holds the scalar stream: it waits, or it writes a scalar register, so that nothing of
the hart issues behind it (R59, R191, R195). Only a return reissues such an instruction. -/
def Hart.heldBack (x : Hart) : Bool := x.vq.any (fun e => !deferrable e.instr)

/-- The hart's posted access has its answer, which completes its instruction: it does so before the queue goes on, whose
trap would wait for it (R388). -/
def answerLands (s : State) (h : Nat) : Bool := (awaited s h).any (fun q => decide (q.phase = .done)) && !answerTraps s h

/-- What the turn of a hart executes: an instruction with the state before it, or the outcome of the turn (log 4). -/
def hartTurn (s : State) (h : Nat) (m : Mode) : Except Out (Instr × State) :=
  let x := s.hart h
  let head : Except Out (Instr × State) :=
    match queueHead s h with
    | none => .error (.next s)
    | some i => if queueRuns s h then .ok (i, { s with agent := .queue h }) else .error (.next s)
  if x.owed && hartRuns s h then .error (.next (deliverImprecise s h (if x.vq.isEmpty then none else some (x.vq, x.pc))))
  else if !x.vq.isEmpty && ((decide (m = .plain) && !(hartRuns s h && answerLands s h)) || ((x.due || x.heldBack) && x.await.isNone)) then head
  else if !hartRuns s h then .error (.next s)
  else if x.await.isSome then
    match awaited s h with
    | none => .error (.next s)
    | some r => if r.phase = .done then .ok (r.instr, { s with agent := .hart h }) else .error (.next s)
  else match boundary s h with
    | some t => .error (.next t)
    | none =>
      match fetchAgent { s with agent := .hart h } with
      | .error o => .error o
      | .ok (i, t) =>
        match m with
        | .plain => .ok (i, t)
        | .post => if queued i then .error (.next s) else .ok (i, { t with posting := some i })
        | .ahead => if queued i && !x.vq.isEmpty then .error (.next s) else .ok (i, t)
        | .defer =>
          if deferrable i && decide (x.vq.length < 8) && !imageBars t && !sptWaits t h then .error (.next (enqueue t h i))
          else if x.vq.isEmpty then .ok (i, t)
          else .error (.next s)

/-- What the turn of a sequencer executes. -/
def seqTurn (s : State) (matrix : Bool) (core : Nat) : Except Out (Instr × State) :=
  if seqRuns s matrix core then fetchAgent { s with agent := if matrix then .mseq core else .cseq core }
  else .error (.next s)

/-- What the turn of an agent executes. -/
def agentTurn (s : State) (a : Agent) : Except Out (Instr × State) :=
  match a with
  | .hart h => hartTurn s h .plain
  | .queue h => hartTurn s h .plain
  | .mseq c => seqTurn s true c
  | .cseq c => seqTurn s false c

/-- The agent of the default turn: a queue's turn is its hart's. -/
def Agent.base (a : Agent) : Agent :=
  match a with
  | .hart h => .hart h
  | .queue h => .hart h
  | .mseq c => .mseq c
  | .cseq c => .cseq c

/-- Time passes with every step; the clock of the time-outs stands while any halt is active (R91, R403, log 3). Window
writes that wait may be performed (R238). -/
def passTime (s : State) : State :=
  settleWin { s with posting := none, ticks := s.ticks + 1, time := s.time + Config.nsIn s.ticks
                     clock := if s.anyHalt then s.clock else s.clock + Config.nsIn s.ticks }

end Sys2Proof.Machine
end

