-- ==== Sys2Proof/Machine/Barrier.lean ====
section
/-! DEFINITION. Transaction barriers (R261, R304 to R306, R313, R314) and the barriers of crews and bands (R309). -/
namespace Sys2Proof.Machine

/-- The fields of a transaction barrier (R261). -/
structure TBar where
  phase : Nat
  ovf : Bool
  err : Bool
  parr : Nat
  iarr : Nat
  psec : Int
deriving DecidableEq, Repr

/-- Reads the object (R261). -/
def tbGet (x : Nat) : TBar :=
  { phase := x % 16, ovf := x.testBit 4, err := x.testBit 5, parr := x / 2 ^ 8 % 65536, iarr := x / 2 ^ 24 % 65536,
    psec := sInt 32 (x / 2 ^ 40 % 2 ^ 32) }

/-- Writes the fields into the object; its reserved bits stay (R261). -/
def tbPut (x : Nat) (b : TBar) : Nat :=
  b.phase % 16 + b01 b.ovf * 16 + b01 b.err * 32 + x / 64 % 4 * 64 + b.parr % 65536 * 2 ^ 8 + b.iarr % 65536 * 2 ^ 24 +
    lowBits 32 b.psec * 2 ^ 40 + x / 2 ^ 72 * 2 ^ 72

/-- The completion check that follows an update (R261). -/
def TBar.check (b : TBar) : TBar :=
  if b.parr = 0 ∧ b.psec = 0 then { b with phase := (b.phase + 1) % 16, parr := b.iarr } else b

/-- The object at a scratchpad offset of a core. -/
def tbRead (s : State) (core off : Nat) : Nat := s.natAt (spadAddr core off) 16

/-- An update of the object, as one part (R256, R261). -/
def tbWrite (s : State) (core off : Nat) (b : TBar) : State :=
  let a := spadAddr core off
  plainWrite s a 16 (tbPut (tbRead s core off) b) (covOf a 16)

/-- The checks of a barrier offset (R304). -/
def tbCheck (off : W) : X Nat := do
  if off.toNat % 16 ≠ 0 then trap cMISALIGN off
  if spBytes (← get).sdp < off.toNat + 16 then trap cXLATE off
  return off.toNat

/-- An update of a barrier: `f` gives none where it overflows, which sets OVF alone and traps (R305). -/
def tbUpdate (off : Nat) (f : TBar → Option TBar) : X Unit := do
  let core ← myCore
  let b := tbGet (tbRead (← get) core off)
  match f b with
  | some c => modify (fun s => tbWrite s core off c.check)
  | none =>
    modify (fun s => tbWrite s core off { b with ovf := true })
    trap cBARRIER (wd off)

/-- Copies that a core's copy sequencer accepted have not completed (R289, R314). -/
def seqCopies (s : State) (core : Nat) : Bool :=
  (s.core core).copies.any (fun x => x.seq && x.cid == (s.hart (s.core core).cseq.owner).cid)

/-- What an arrival or an expectation waits for: a hart's earlier accesses and vector instructions (R305), and in the
copy sequencer, for an arrival, its earlier copies, where a faulted engine stops it (R314). -/
def tbRelease (arrive : Bool) : X Unit := do
  let s ← get
  match s.agent with
  | .hart _ => if arrive then needAll else pure ()
  | .queue _ => pure ()
  | .mseq _ => pure ()
  | .cseq c =>
    if arrive && seqCopies s c && (s.core c).cfault.isNone then stall

/-- The copy sequencer stops at its instruction with the copy engine's fault word (R289, R292, R314). -/
def engineFaultStop (s : State) (core : Nat) (e : EngFault) : State :=
  s.modCore core (fun k => { k with cseq := { k.cseq with phase := .stopped, fword := e.fword, fva := e.va, fpc := e.pc } })

/-- An instruction of the copy sequencer that the fault of its engine stops where `held` says so of the core: always for a
copy (R292), while copies of the sequencer have not completed for an arrival (R314). That stop comes before the instruction's
own checks (log 104). -/
def unlessFaulted (held : State → Nat → Bool) (s : State) (o : Out) : Out :=
  match s.agent with
  | .cseq c =>
    match (s.core c).cfault with
    | some e => if held s c then .next (engineFaultStop s c e) else o
    | none => o
  | .hart _ => o
  | .queue _ => o
  | .mseq _ => o

/-- TBINIT (R304, R305, R313). -/
def execTbinit (a b : SReg) (s : State) : Out :=
  syncX (.tbinit a b) (do
    let off ← tbCheck (← rd a)
    let n := (← rd b).toNat
    tbUpdate off (fun _ => if n = 0 ∨ 65535 < n then none
      else some { phase := 0, ovf := false, err := false, parr := n, iarr := n, psec := 0 })) s

/-- TBARRIVE (R304, R305, R314). -/
def execTbarrive (a : SReg) (s : State) : Out :=
  unlessFaulted seqCopies s (syncX (.tbarrive a) (do
    let off ← tbCheck (← rd a)
    tbRelease true
    tbUpdate off (fun x => if x.parr = 0 then none else some { x with parr := x.parr - 1 })) s)

/-- The update of TBEXPECT (R304, R305). -/
def tbExpect (n : Nat) (arv : Bool) (x : TBar) : Option TBar :=
  let p := x.psec + (n : Int)
  if 2 ^ 31 ≤ p ∨ (arv ∧ x.parr = 0) then none
  else some { x with psec := p, parr := if arv then x.parr - 1 else x.parr }

/-- TBEXPECT (R304, R305, R314). -/
def execTbexpect (a b : SReg) (arv : Bool) (s : State) : Out :=
  unlessFaulted (fun s c => arv && seqCopies s c) s (syncX (.tbexpect a b arv) (do
    let off ← tbCheck (← rd a)
    let n ← rd b
    tbRelease arv
    tbUpdate off (tbExpect n.toNat arv)) s)

/-- TBWAIT (R306). -/
def execTbwait (a b : SReg) (s : State) : Out :=
  syncX (.tbwait a b) (do
    let off ← tbCheck (← rd a)
    let core ← myCore
    let p ← rd b
    if (tbGet (tbRead (← get) core off)).phase = p.toNat % 16 then stall) s

/-- A hart has arrived at barrier number `n`: it has executed it, or it has ended (R309). -/
def arrived (s : State) (bi : Nat) (count : Hart → Nat) (n h : Nat) : Bool :=
  let x := s.hart h
  !(x.live && x.band == bi) || decide (n ≤ count x)

/-- The harts of a crew of a band that holds a hart. -/
def crewHarts (s : State) (h : Nat) : List Nat :=
  match s.band? (s.hart h).band with
  | none => [h]
  | some b => (b.crews.find? (fun c => c.contains h)).getD [h]

/-- The harts of a hart's band. -/
def bandHarts (s : State) (h : Nat) : List Nat :=
  match s.band? (s.hart h).band with
  | none => [h]
  | some b => b.crews.flatten

/-- CBAR (R309): an arrival is kept until the barrier completes. -/
def execCbar (s : State) : Out :=
  scalarX .cbar (do
    needAll
    onMe (fun x => if x.ncbar = x.cpass then { x with ncbar := x.ncbar + 1 } else x)
    let t ← get
    let h ← me
    let x ← myHart
    if (crewHarts t h).all (arrived t x.band (·.ncbar) x.ncbar) then onMe (fun y => { y with cpass := y.ncbar })
    else stall) s

/-- BBAR (R309). -/
def execBbar (s : State) : Out :=
  scalarX .bbar (do
    needAll
    onMe (fun x => if x.nbbar = x.bpass then { x with nbbar := x.nbbar + 1 } else x)
    let t ← get
    let h ← me
    let x ← myHart
    if (bandHarts t h).all (arrived t x.band (·.nbbar) x.nbbar) then onMe (fun y => { y with bpass := y.nbbar })
    else stall) s

end Sys2Proof.Machine
end

