-- ==== Sys2Proof/Machine/Branch.lean ====
section
/-! DEFINITION. Control transfer (R149 to R152). -/
namespace Sys2Proof.Machine

/-- The hart's program counter becomes `t`. -/
def setPc (t : W) : X Unit := onMe (fun x => { x with pc := t })

/-- The program counter after the instruction, past it (R84). -/
def linkPc : X W := do
  let x ← myHart
  return nextPC x.pc x.nh

/-- A branch of a hart that is taken when the comparison of D and A holds (R151). -/
def condBranch (i : Instr) (f : W → W → Bool) (d a : SReg) (t : BitVec 26) (s : State) : Out :=
  jumpX i (do
    let x ← myHart
    let p ← linkPc
    setPc (if f (x.rd d) (x.rd a) then target x.pc t else p)) s

/-- A register branch whose target is no slot traps at the branch (R85, R150). -/
def checkTarget (t : W) : X Unit := if t.toNat % 2 = 1 ∨ t.toNat / 2 % 32 = 0 then trap cMISALIGN t else pure ()

/-- B in a hart, or in a sequencer with its own program counter (R149, R152). -/
def execB (t : BitVec 26) (s : State) : Out :=
  match s.agent with
  | .hart h => .next (retire (s.modHart h (fun x => { x with pc := target x.pc t })) h)
  | .queue h => .next (retire (s.modHart h (fun x => { x with pc := target x.pc t })) h)
  | .mseq c => .next (s.modCore c (fun k => { k with mseq := { k.mseq with pc := target k.mseq.pc t } }))
  | .cseq c => .next (s.modCore c (fun k => { k with cseq := { k.cseq with pc := target k.cseq.pc t } }))
/-- BL (R149). -/
def execBl (d : SReg) (t : BitVec 26) (s : State) : Out :=
  jumpX (.bl d t) (do
    let x ← myHart
    wr d (← linkPc)
    setPc (target x.pc t)) s
/-- BR (R150). -/
def execBr (d : SReg) (s : State) : Out :=
  jumpX (.br d) (do
    let t ← rd d
    checkTarget t
    setPc t) s
/-- BLR (R150). -/
def execBlr (d a : SReg) (s : State) : Out :=
  jumpX (.blr d a) (do
    let t ← rd a
    checkTarget t
    wr d (← linkPc)
    setPc t) s
/-- BEQ (R151). -/
def execBeq (d a : SReg) (t : BitVec 26) (s : State) : Out := condBranch (.beq d a t) (fun x y => decide (x = y)) d a t s
/-- BNE (R151). -/
def execBne (d a : SReg) (t : BitVec 26) (s : State) : Out := condBranch (.bne d a t) (fun x y => decide (x ≠ y)) d a t s
/-- BLT (R151). -/
def execBlt (d a : SReg) (t : BitVec 26) (s : State) : Out := condBranch (.blt d a t) (fun x y => x.slt y) d a t s
/-- BGE (R151). -/
def execBge (d a : SReg) (t : BitVec 26) (s : State) : Out := condBranch (.bge d a t) (fun x y => !x.slt y) d a t s
/-- BLTN (R151). -/
def execBltn (d a : SReg) (t : BitVec 26) (s : State) : Out := condBranch (.bltn d a t) (fun x y => x.ult y) d a t s
/-- BGEN (R151). -/
def execBgen (d a : SReg) (t : BitVec 26) (s : State) : Out := condBranch (.bgen d a t) (fun x y => !x.ult y) d a t s

end Sys2Proof.Machine
end

