-- ==== Sys2Proof/Machine/Float.lean ====
section
/-! DEFINITION. Floating-point values and arithmetic: exact rationals rounded once (R115 to R122, R129 to R136). -/
namespace Sys2Proof.Machine

/-- A floating-point value: a NaN, signalling or not; an infinity; or the signed rational n / d. -/
inductive FVal where
  | nan (signalling : Bool)
  | inf (neg : Bool)
  | fin (neg : Bool) (n d : Nat)
deriving DecidableEq, Repr

/-- How the top exponent of a format reads (R116). -/
inductive FCls where
  | ieee | e4m3 | finite
deriving DecidableEq, Repr

/-- A float layout: exponent and mantissa widths, bias and class (R115). -/
structure FLay where
  ebits : Nat
  mbits : Nat
  bias : Nat
  cls : FCls
deriving DecidableEq, Repr

/-- The float layouts of format codes 0 to 6 (R115). -/
def layFP32 : FLay := ⟨8, 23, 127, .ieee⟩
/-- BF16 (R115). -/
def layBF16 : FLay := ⟨8, 7, 127, .ieee⟩
/-- FP16 (R115). -/
def layFP16 : FLay := ⟨5, 10, 15, .ieee⟩
/-- E5M2 (R115). -/
def layE5M2 : FLay := ⟨5, 2, 15, .ieee⟩
/-- E4M3 (R115). -/
def layE4M3 : FLay := ⟨4, 3, 7, .e4m3⟩
/-- E3M2 (R115). -/
def layE3M2 : FLay := ⟨3, 2, 3, .finite⟩
/-- E2M1 (R115). -/
def layE2M1 : FLay := ⟨2, 1, 1, .finite⟩

/-- Sign bit position. -/
def FLay.sgn (f : FLay) : Nat := f.ebits + f.mbits

/-- The pattern of the largest finite magnitude (R115, R116). -/
def FLay.maxBits (f : FLay) : Nat :=
  match f.cls with
  | .ieee => (2 ^ f.ebits - 1) * 2 ^ f.mbits - 1
  | .e4m3 => 2 ^ (f.ebits + f.mbits) - 2
  | .finite => 2 ^ (f.ebits + f.mbits) - 1

/-- The canonical NaN; E3M2 and E2M1 have none and hold +0 (R117, R120). -/
def FLay.nanBits (f : FLay) : Nat :=
  match f.cls with
  | .ieee => (2 ^ f.ebits - 1) * 2 ^ f.mbits + 2 ^ (f.mbits - 1)
  | .e4m3 => 2 ^ (f.ebits + f.mbits) - 1
  | .finite => 0

/-- The value of a magnitude pattern: (exponent, mantissa) as numerator over denominator (R115). -/
def FLay.mag (f : FLay) (m : Nat) : Nat × Nat :=
  let e := m / 2 ^ f.mbits
  let t := m % 2 ^ f.mbits
  let s := if e = 0 then t else t + 2 ^ f.mbits
  let up := if e = 0 then 1 else e
  let dn := f.bias + f.mbits
  if dn ≤ up then (s * 2 ^ (up - dn), 1) else (s, 2 ^ (dn - up))

/-- The value of a bit pattern (R115, R116). -/
def FLay.val (f : FLay) (b : Nat) : FVal :=
  let m := b % 2 ^ f.sgn
  let neg := b / 2 ^ f.sgn % 2 == 1
  match f.cls with
  | .ieee =>
    if m / 2 ^ f.mbits = 2 ^ f.ebits - 1 then
      if m % 2 ^ f.mbits = 0 then .inf neg else .nan (m % 2 ^ f.mbits < 2 ^ (f.mbits - 1))
    else .fin neg (f.mag m).1 (f.mag m).2
  | .e4m3 =>
    if m = 2 ^ f.sgn - 1 then .nan false else .fin neg (f.mag m).1 (f.mag m).2
  | .finite => .fin neg (f.mag m).1 (f.mag m).2

/-- A subnormal pattern: exponent field zero, mantissa not (R130). -/
def FLay.isSub (f : FLay) (b : Nat) : Bool :=
  let m := b % 2 ^ f.sgn
  decide (m / 2 ^ f.mbits = 0 ∧ m ≠ 0)

/-- The magnitude n / d rounded to an integer under a rounding mode (R121: 0 RNE, 1 RTZ, 2 RDN, 3 RUP, 4 RNA), with
whether it was inexact. -/
def roundMag (rm : Nat) (neg : Bool) (n d : Nat) : Nat × Bool :=
  let q := n / d
  let r := n % d
  let up := match rm with
    | 0 => decide (d < 2 * r) || (decide (2 * r = d) && decide (q % 2 = 1))
    | 1 => false
    | 2 => neg && decide (r ≠ 0)
    | 3 => !neg && decide (r ≠ 0)
    | _ => decide (d ≤ 2 * r)
  (if up then q + 1 else q, decide (r ≠ 0))

/-- n / d divided by 2^q. -/
def qscale (n d : Nat) (q : Int) : Nat × Nat :=
  if 0 ≤ q then (n, d * 2 ^ q.toNat) else (n * 2 ^ (-q).toNat, d)

/-- The bits of an overflow (R120). -/
def FLay.overBits (f : FLay) (rm : Nat) (neg : Bool) : Nat :=
  match f.cls with
  | .ieee =>
    let toInf := match rm with
      | 0 => true
      | 1 => false
      | 2 => neg
      | 3 => !neg
      | _ => true
    if toInf then (2 ^ f.ebits - 1) * 2 ^ f.mbits else f.maxBits
  | .e4m3 => f.maxBits
  | .finite => f.maxBits

/-- A finite value rounded once to the format under a mode, with OF, UF (tiny after rounding and inexact) and NX
(R111, R120). -/
def FLay.roundFin (f : FLay) (rm : Nat) (neg : Bool) (n d : Nat) : Nat × Nat :=
  let s := if neg then 2 ^ f.sgn else 0
  if n = 0 then (s, 0)
  else
    let emin : Int := 1 - (f.bias : Int)
    let e := qlog2 n d
    let qmin : Int := emin - f.mbits
    let q : Int := (if e < emin then emin else e) - f.mbits
    let x := qscale n d q
    let r := roundMag rm neg x.1 x.2
    let code : Nat := (q - qmin).toNat * 2 ^ f.mbits + r.1
    if f.maxBits < code then (s + f.overBits rm neg, fOF ||| fNX)
    else
      let y := qscale n d (e - f.mbits)
      let u := (roundMag rm neg y.1 y.2).1
      -- tiny after rounding with an unbounded exponent
      let tiny := decide (e < emin) && !(decide (e = emin - 1) && decide (u = 2 ^ (f.mbits + 1)))
      (s + code, if r.2 then fNX ||| (if tiny then fUF else 0) else 0)

/-- A value converted to the format under a mode (R120). -/
def FLay.round (f : FLay) (rm : Nat) (v : FVal) : Nat × Nat :=
  match v with
  | .nan sig =>
    match f.cls with
    | .finite => (0, fNV)
    | .ieee => (f.nanBits, flagIf sig fNV)
    | .e4m3 => (f.nanBits, flagIf sig fNV)
  | .inf neg =>
    let s := if neg then 2 ^ f.sgn else 0
    match f.cls with
    | .ieee => (s + (2 ^ f.ebits - 1) * 2 ^ f.mbits, 0)
    | .e4m3 => (s + f.maxBits, fNV)
    | .finite => (s + f.maxBits, fNV)
  | .fin neg n d => f.roundFin rm neg n d

/-- The signed integer of a rounded magnitude. -/
def sgnInt (neg : Bool) (n : Nat) : Int := if neg then -(n : Int) else n

/-- The sign and magnitude of an integer as a value. -/
def FVal.ofInt (i : Int) : FVal := .fin (decide (i < 0)) i.natAbs 1

/-- The value is a NaN. -/
def FVal.isNan : FVal → Bool
  | .nan _ => true
  | .inf _ => false
  | .fin _ _ _ => false

/-- The value is a NaN or infinite. -/
def FVal.notFin : FVal → Bool
  | .nan _ => true
  | .inf _ => true
  | .fin _ _ _ => false

/-- The value is a signalling NaN. -/
def FVal.sig : FVal → Bool
  | .nan s => s
  | .inf _ => false
  | .fin _ _ _ => false

/-- The sign of a value. -/
def FVal.neg : FVal → Bool
  | .nan _ => false
  | .inf n => n
  | .fin n _ _ => n

/-- The value with its sign turned. -/
def FVal.negate : FVal → FVal
  | .nan s => .nan s
  | .inf n => .inf (!n)
  | .fin n a b => .fin (!n) a b

/-- A quiet NaN result with the flags of its NaN inputs, or of an invalid operation (R129). -/
def quiet (f : Nat) : FVal × Nat := (.nan false, f)

/-- NV of a set of operands that hold a signalling NaN (R129). -/
def sigNV (xs : List FVal) : Nat := flagIf (xs.any FVal.sig) fNV

/-- The exact sum (R129); an exact zero of opposite signs is +0, as IEEE 754 gives under RNE. -/
def fAdd (a b : FVal) : FVal × Nat :=
  if a.isNan || b.isNan then quiet (sigNV [a, b])
  else match a, b with
    | .inf x, .inf y => if x = y then (.inf x, 0) else quiet fNV
    | .inf x, _ => (.inf x, 0)
    | _, .inf y => (.inf y, 0)
    | .fin x n d, .fin y m e =>
      let s : Int := sgnInt x (n * e) + sgnInt y (m * d)
      (.fin (if s = 0 then x && y else decide (s < 0)) s.natAbs (d * e), 0)
    | _, _ => quiet 0

/-- The exact product (R129). -/
def fMul (a b : FVal) : FVal × Nat :=
  if a.isNan || b.isNan then quiet (sigNV [a, b])
  else match a, b with
    | .inf x, .inf y => (.inf (x != y), 0)
    | .inf x, .fin y m _ => if m = 0 then quiet fNV else (.inf (x != y), 0)
    | .fin x n _, .inf y => if n = 0 then quiet fNV else (.inf (x != y), 0)
    | .fin x n d, .fin y m e => (.fin (x != y) (n * m) (d * e), 0)
    | _, _ => quiet 0

/-- The exact product and sum a × b + c (R129). -/
def fFma (a b c : FVal) : FVal × Nat :=
  if a.isNan || b.isNan || c.isNan then
    -- an invalid product with a quiet addend is a NaN input case: IEEE 754 raises NV for 0 × infinity
    let p := fMul a b
    quiet (sigNV [a, b, c] ||| (if a.isNan || b.isNan then 0 else p.2))
  else
    let p := fMul a b
    let s := fAdd p.1 c
    (s.1, p.2 ||| s.2)

/-- The exact quotient (R129, R203). -/
def fDiv (a b : FVal) : FVal × Nat :=
  if a.isNan || b.isNan then quiet (sigNV [a, b])
  else match a, b with
    | .inf _, .inf _ => quiet fNV
    | .inf x, .fin y _ _ => (.inf (x != y), 0)
    | .fin x _ _, .inf y => (.fin (x != y) 0 1, 0)
    | .fin x n d, .fin y m e =>
      if m = 0 then (if n = 0 then quiet fNV else (.inf (x != y), fDZ))
      else (.fin (x != y) (n * e) (d * m), 0)
    | _, _ => quiet 0

/-- The square root, exact or with a last digit that keeps it on its own side of every rounding point (R203). -/
def fSqrt (a : FVal) : FVal × Nat :=
  match a with
  | .nan s => quiet (flagIf s fNV)
  | .inf false => (.inf false, 0)
  | .inf true => quiet fNV
  | .fin neg n d =>
    if n = 0 then (.fin neg 0 1, 0)
    else if neg then quiet fNV
    else
      -- 2^(2k) n / d has at least 80 bits
      let k : Nat := 40 + Nat.log2 d
      let t := n * 2 ^ (2 * k) / d
      let r := isqrt t
      let sticky := if r * r = t ∧ n * 2 ^ (2 * k) % d = 0 then 0 else 1
      (.fin false (2 * r + sticky) (2 ^ (k + 1)), 0)

/-- a < b for values that are not NaN; −0 equals +0 (R204). -/
def fLt (a b : FVal) : Bool :=
  match a, b with
  | .inf x, .inf y => x && !y
  | .inf x, .fin _ _ _ => x
  | .fin _ _ _, .inf y => !y
  | .fin x n d, .fin y m e => decide (sgnInt x (n * e) < sgnInt y (m * d))
  | _, _ => false

/-- a = b for values that are not NaN (R204). -/
def fEq (a b : FVal) : Bool :=
  match a, b with
  | .inf x, .inf y => x == y
  | .fin x n d, .fin y m e => decide (sgnInt x (n * e) = sgnInt y (m * d))
  | _, _ => false

/-- a is the lesser for VFMIN, with −0 below +0 (R203). -/
def fLess (a b : FVal) : Bool := fLt a b || (fEq a b && a.neg && !b.neg)

/-- Greater (or lesser) of two values under R203, with the flags of NaN operands. -/
def fPick (max : Bool) (a b : FVal) : FVal × Nat :=
  if a.isNan || b.isNan then quiet (sigNV [a, b])
  else if max then (if fLess a b then (b, 0) else (a, 0))
  else (if fLess b a then (b, 0) else (a, 0))

/-- The register type of a floating-point element: BF16 for SEW 16, FP32 for SEW 32 (R87). -/
def layOf (sew : Nat) : FLay := if sew = 16 then layBF16 else layFP32

/-- Round an exact result to the element type, adding its flags (R129). -/
def rnd (f : FLay) (rm : Nat) (x : FVal × Nat) : Nat × Nat :=
  let r := f.round rm x.1
  (r.1, x.2 ||| r.2)

/-- Input flush of R130 on a pattern: a subnormal becomes zero of its sign. -/
def flushIn (f : FLay) (fz b : Nat) : Nat :=
  if fz / 2 % 2 = 1 ∧ f.isSub b then b / 2 ^ f.sgn * 2 ^ f.sgn else b

/-- Output flush of R130: a subnormal result becomes zero of its sign and sets UF and NX. -/
def flushOut (f : FLay) (fz : Nat) (x : Nat × Nat) : Nat × Nat :=
  if fz % 2 = 1 ∧ f.isSub x.1 then (x.1 / 2 ^ f.sgn * 2 ^ f.sgn, x.2 ||| fUF ||| fNX) else x

/-- RoundFP32 under RNE (R106). -/
def r32 (x : FVal × Nat) : Nat × Nat := rnd layFP32 0 x

/-- The value of an FP32 pattern. -/
def v32 (b : Nat) : FVal := layFP32.val b

/-- FMA of R106: a × b + c rounded once to FP32 with RNE, on patterns. -/
def fma32 (a b c : Nat) : Nat × Nat := r32 (fFma (v32 a) (v32 b) (v32 c))

/-- EXPT of R133: 2^(j/32) rounded to FP32. -/
def expT : List Nat :=
  [0x3F800000, 0x3F82CD87, 0x3F85AAC3, 0x3F88980F, 0x3F8B95C2, 0x3F8EA43A, 0x3F91C3D3, 0x3F94F4F0,
   0x3F9837F0, 0x3F9B8D3A, 0x3F9EF532, 0x3FA27043, 0x3FA5FED7, 0x3FA9A15B, 0x3FAD583F, 0x3FB123F6] ++
  [0x3FB504F3, 0x3FB8FBAF, 0x3FBD08A4, 0x3FC12C4D, 0x3FC5672A, 0x3FC9B9BE, 0x3FCE248C, 0x3FD2A81E,
   0x3FD744FD, 0x3FDBFBB8, 0x3FE0CCDF, 0x3FE5B907, 0x3FEAC0C7, 0x3FEFE4BA, 0x3FF5257D, 0x3FFA83B3]

/-- The floor of a value's exact product with 32, for a finite value. -/
def floor32 (neg : Bool) (n d : Nat) : Int := sgnInt neg (n * 32) / (d : Int)

/-- 2^q as a value. -/
def pow2 (q : Int) : FVal := if 0 ≤ q then .fin false (2 ^ q.toNat) 1 else .fin false 1 (2 ^ (-q).toNat)

/-- Exp2Ref of R133, on an FP32 pattern. -/
def exp2Ref (x : Nat) : Nat × Nat :=
  match v32 x with
  | .nan s => (layFP32.nanBits, flagIf s fNV)
  | .inf false => (x, 0)
  | .inf true => (0, 0)
  | .fin neg n d =>
    if !neg && decide (128 * d ≤ n) then (0x7F800000, fOF ||| fNX)
    else if neg && decide (150 * d < n) then (0, fUF ||| fNX)
    else
      let k := floor32 neg n d
      let q : Int := k / 32
      let j : Nat := (k - 32 * q).toNat
      let f := r32 (fAdd (.fin neg n d) ((FVal.fin (decide (k < 0)) k.natAbs 32).negate))
      let p1 := fma32 f.1 0x3D635847 0x3E75FDF0
      let p2 := fma32 f.1 p1.1 0x3F317218
      let p3 := fma32 f.1 p2.1 0x3F800000
      let y := r32 (fMul (v32 (expT.getD j 0)) (v32 p3.1))
      let z := r32 (fMul (v32 y.1) (pow2 q))
      (z.1, f.2 ||| p1.2 ||| p2.2 ||| p3.2 ||| y.2 ||| z.2)

/-- RCPT of R134: 64 / (65 + 2j) rounded to FP32. -/
def rcpT (j : Nat) : Nat := (layFP32.roundFin 0 false 64 (65 + 2 * j)).1

/-- RcpRef of R134, on an FP32 pattern. -/
def rcpRef (x : Nat) : Nat × Nat :=
  match v32 x with
  | .nan s => (layFP32.nanBits, flagIf s fNV)
  | .inf neg => (if neg then 2 ^ 31 else 0, 0)
  | .fin neg n d =>
    let s := if neg then 2 ^ 31 else 0
    if n = 0 then (s + 0x7F800000, fDZ)
    else
      let e := qlog2 n d
      let g := qscale n d e
      let gb := (layFP32.roundFin 0 false g.1 g.2).1
      let ng := 2 ^ 31 + gb
      let j := (g.1 * 32 / g.2) - 32
      let y0 := rcpT j
      let t1 := fma32 ng y0 0x3F800000
      let y1 := fma32 y0 t1.1 y0
      let t2 := fma32 ng y1.1 0x3F800000
      let y2 := fma32 y1.1 t2.1 y1.1
      let z := r32 (fMul (v32 y2.1) (pow2 (-e)))
      (s + z.1 % 2 ^ 31, t1.2 ||| y1.2 ||| t2.2 ||| y2.2 ||| z.2)

/-- A float converted to an integer of a range under a mode: NV when the value changes or is a NaN, else NX when
inexact (R122). -/
def fToInt (rm : Nat) (lo hi : Int) (v : FVal) : Int × Nat :=
  match v with
  | .nan _ => (0, fNV)
  | .inf neg => (if neg then lo else hi, fNV)
  | .fin neg n d =>
    let r := roundMag rm neg n d
    let i := sgnInt neg r.1
    if hi < i then (hi, fNV) else if i < lo then (lo, fNV) else (i, flagIf r.2 fNX)

/-- RoundInt of R106: an exact signed rational rounded to an integer. -/
def roundInt (rm : Nat) (neg : Bool) (n d : Nat) : Int × Bool :=
  let r := roundMag rm neg n d
  (sgnInt neg r.1, r.2)

end Sys2Proof.Machine
end

