-- ==== Sys2Proof/Machine/Formats.lean ====
section
/-! DEFINITION. The 32 storage formats and the conversions between them and the register types (R107, R115 to R127). -/
namespace Sys2Proof.Machine

/-- Codes 7 to 16 are the integer class (R107). -/
def fmtInt (c : Nat) : Bool := decide (7 ≤ c) && decide (c ≤ 16)

/-- Codes 17 to 31 are block formats (R211). -/
def fmtBlock (c : Nat) : Bool := decide (17 ≤ c)

/-- Bits per element of a plain format (R115). -/
def fmtBits (c : Nat) : Nat :=
  [32, 16, 16, 8, 8, 8, 4, 32, 16, 8, 4, 2, 2, 16, 8, 4, 1].getD c 8

/-- Whole-byte formats (R211). -/
def fmtWhole (c : Nat) : Bool := !fmtBlock c && decide (fmtBits c % 8 = 0)

/-- Elements of a block (R119, R123, R124). -/
def blkN (c : Nat) : Nat := if 24 ≤ c ∧ c ≤ 30 then 16 else 32

/-- Mantissa width of a BFP format (R115). -/
def blkW (c : Nat) : Nat := if c < 24 then c - 15 else c - 22

/-- Bytes of a block (R123, R124). -/
def blkBytes (c : Nat) : Nat := if c = 31 then 34 else if c < 24 then 1 + 4 * blkW c else 1 + 2 * blkW c

/-- The float layout of codes 0 to 6 (R115). -/
def fmtLay (c : Nat) : FLay :=
  [layFP32, layBF16, layFP16, layE5M2, layE4M3, layE3M2, layE2M1].getD c layFP32

/-- The integer that a stored element of codes 7 to 16 holds, with NV for a TERN 0b10 (R115, R122). -/
def intVal (c b : Nat) : Int × Nat :=
  if c = 12 then (if b % 4 = 2 then (0, fNV) else (sInt 2 b, 0))
  else if c ≤ 11 then (sInt (fmtBits c) b, 0)
  else ((b % 2 ^ fmtBits c : Nat), 0)

/-- The pattern of an integer in an integer-class format that holds it. -/
def intPat (c : Nat) (i : Int) : Nat := lowBits (fmtBits c) i

/-- Saturation of an integer to an integer-class format (R122). -/
def intSat (c : Nat) (i : Int) : Int × Nat :=
  if c = 12 then (if 1 < i then (1, fSAT) else if i < -1 then (-1, fSAT) else (i, 0))
  else if c ≤ 11 then satS (fmtBits c) i else satN (fmtBits c) i

/-- FromFmt towards a float layout: a same-format move keeps every bit, another float rounds once, an integer rounds
(R119, R120, R122, R280, R285). -/
def fromFmtF (f : FLay) (rm c b : Nat) : Nat × Nat :=
  if fmtInt c then
    let i := intVal c b
    let r := f.round rm (FVal.ofInt i.1)
    (r.1, i.2 ||| r.2)
  else if fmtLay c = f then (b % 2 ^ (f.sgn + 1), 0)
  else f.round rm ((fmtLay c).val b)

/-- FromFmt of R106 to an element of SEW bits (R107, R119, R120, R122). -/
def fromFmt (sew rm c b : Nat) : Nat × Nat :=
  if fmtInt c then
    let i := intVal c b
    let s := if fmtBits c ≤ sew then (i.1, 0) else if c ≤ 12 then satS sew i.1 else satN sew i.1
    (lowBits sew s.1, i.2 ||| s.2)
  else fromFmtF (layOf sew) rm c b

/-- ToFmt from a float layout: to an integer format, TERN included, it is float to integer (R120, R122, R285). -/
def toFmtF (f : FLay) (rm c b : Nat) : Nat × Nat :=
  if fmtInt c then
    let lo : Int := if c = 12 then -1 else if c ≤ 11 then -(2 ^ (fmtBits c - 1) : Nat) else 0
    let hi : Int := if c = 12 then 1 else if c ≤ 11 then (2 ^ (fmtBits c - 1) : Nat) - 1
      else (2 ^ fmtBits c : Nat) - 1
    let r := fToInt rm lo hi (f.val b)
    (intPat c r.1, r.2)
  else if fmtLay c = f then (b % 2 ^ (f.sgn + 1), 0)
  else (fmtLay c).round rm (f.val b)

/-- ToFmt of R106 from an element of SEW bits (R107, R119, R120, R122). -/
def toFmt (sew rm c b : Nat) : Nat × Nat :=
  if fmtInt c then
    let i : Int := if c ≤ 12 then sInt sew b else (b % 2 ^ sew : Nat)
    let s := intSat c i
    (intPat c s.1, s.2)
  else toFmtF (layOf sew) rm c b

/-- Field of `w` bits at bit `lo` of a list of bytes, as R118 packs it. -/
def packGet (bs : List Byte) (lo w : Nat) : Nat := leNat bs / 2 ^ lo % 2 ^ w

/-- Element `i` of a block of bytes towards a float layout (R123, R124). -/
def blkLoad (f : FLay) (rm c : Nat) (bs : List Byte) (i : Nat) : Nat × Nat :=
  if c = 31 then
    let sc := layFP16.val (packGet bs 0 16)
    let q := sInt 8 (packGet bs (16 + 8 * i) 8)
    match sc with
    | .nan s => (f.nanBits, flagIf s fNV)
    | .inf _ => rnd f rm (fMul (FVal.ofInt q) sc)
    | .fin _ _ _ => rnd f rm (fMul (FVal.ofInt q) sc)
  else
    let e := packGet bs 0 8
    let w := blkW c
    if e = 0 then (0, 0)
    else if e = 255 then (f.nanBits, fNV)
    else
      let m := sInt w (packGet bs (8 + w * i) w)
      rnd f rm (fMul (FVal.ofInt m) (pow2 ((e : Int) - 127 - ((w : Int) - 2))))

/-- A quantised block: its shared exponent or scale, its mantissas, its two side slots, and the flags (R123, R126). -/
structure QBlock where
  scale : Nat
  ms : List Int
  side : List Nat
  flags : Nat
deriving DecidableEq, Repr

/-- The magnitude of a finite value as numerator and denominator. -/
def FVal.abs : FVal → Nat × Nat
  | .nan _ => (0, 1)
  | .inf _ => (0, 1)
  | .fin _ n d => (n, d)

/-- a < b for magnitudes. -/
def qlt (a b : Nat × Nat) : Bool := decide (a.1 * b.2 < b.1 * a.2)

/-- The largest magnitude of a list of values (R126). -/
def maxAbs : List FVal → Nat × Nat
  | [] => (0, 1)
  | x :: r => if qlt (maxAbs r) x.abs then x.abs else maxAbs r

/-- Puts an element into a list ordered by magnitude descending, then index ascending (R126). -/
def insBig (x : Nat × FVal) : List (Nat × FVal) → List (Nat × FVal)
  | [] => [x]
  | y :: r => if qlt y.2.abs x.2.abs then x :: y :: r else y :: insBig x r

/-- The sum of the magnitudes of a list of values (R126). -/
def sumAbs : List FVal → Nat × Nat
  | [] => (0, 1)
  | x :: r => ((sumAbs r).1 * x.abs.2 + x.abs.1 * (sumAbs r).2, (sumAbs r).2 * x.abs.2)

/-- x / 2^q rounded to an integer (R126). -/
def mant (rm : Nat) (x : FVal) (q : Int) : Int × Bool :=
  let y := qscale x.abs.1 x.abs.2 q
  roundInt rm x.neg y.1 y.2

/-- QuantBlock of R126: `xs` holds the element of each slot, none where it is not real; `oth` is 0 for a plain
store. -/
def quantBlock (rm w oth : Nat) (xs : List (Option FVal)) : QBlock :=
  let real : List (Nat × FVal) := xs.zipIdx.filterMap fun p => p.1.map fun v => (p.2, v)
  let none' := xs.map fun _ => (0 : Int)
  if real.any (fun p => p.2.notFin) then { scale := 255, ms := none', side := [0, 0], flags := fNV }
  else
    let lo : Int := -(2 ^ (w - 1) : Nat)
    let hi : Int := (2 ^ (w - 1) : Nat) - 1
    let t := 2 * 2 ^ oth
    let cnt := real.length
    let sum := sumAbs (real.map (·.2))
    let big : List (Nat × FVal) := if oth = 0 then [] else
      (real.filter fun p => qlt (t * sum.1, sum.2) (p.2.abs.1 * cnt, p.2.abs.2)).foldl (fun l p => insBig p l) []
    let side := big.take 2
    let clip := big.drop 2
    let keep : List (Nat × FVal) := real.filter fun p => !(big.any fun b => b.1 == p.1)
    let a := maxAbs (keep.map (·.2))
    let sd : List (Nat × Nat) := side.map fun p =>
      let v := layFP16.round rm p.2
      (2 ^ 31 + p.1 * 65536 + v.1, v.2)
    let sideW := (sd.map Prod.fst ++ [0, 0]).take 2
    let sideF := (sd.map (·.2)).foldl (· ||| ·) 0
    if a.1 = 0 then
      { scale := 0, ms := none', side := sideW, flags := sideF ||| flagIf (decide (clip ≠ [])) fSAT }
    else
      let e0 : Int := qlog2 a.1 a.2 + 127
      let e1 : Int := if e0 < 1 then 1 else if 254 < e0 then 254 else e0
      let q (e : Int) : Int := e - 127 - ((w : Int) - 2)
      let out (e : Int) := keep.any fun p =>
        decide ((mant rm p.2 (q e)).1 < lo) || decide (hi < (mant rm p.2 (q e)).1)
      let e2 : Int := if out e1 && decide (e1 < 254) then e1 + 1 else e1
      let inex := keep.any fun p => (mant rm p.2 (q e2)).2
      let ms := xs.zipIdx.map fun p =>
        match p.1 with
        | none => (0 : Int)
        | some v =>
          if side.any (fun b => b.1 == p.2) then 0
          else if clip.any (fun b => b.1 == p.2) then (if v.neg && decide (v.abs.1 ≠ 0) then lo else hi)
          else
            let m := (mant rm v (q e2)).1
            if m < lo then lo else if hi < m then hi else m
      { scale := e2.toNat, ms := ms, side := sideW,
        flags := sideF ||| flagIf (out e2) fSAT ||| flagIf (decide (clip ≠ [])) fSAT ||| flagIf inex fNX }

/-- The store of an INT8-SC block (R123). -/
def quantSC (rm : Nat) (xs : List (Option FVal)) : QBlock :=
  let real := xs.filterMap id
  let none' := xs.map fun _ => (0 : Int)
  let a := maxAbs real
  if real.any FVal.notFin then { scale := 0x7E00, ms := none', side := [], flags := fNV }
  else if a.1 = 0 then { scale := 0, ms := none', side := [], flags := 0 }
  else
    let overV := decide (65504 * (127 * a.2) < a.1)
    let c := if overV then 0x7BFF else (layFP16.roundFin 3 false a.1 (127 * a.2)).1
    let cv := layFP16.mag c
    let qs := xs.map fun x =>
      match x with
      | none => ((0 : Int), false)
      | some v => roundInt rm v.neg (v.abs.1 * cv.2) (v.abs.2 * cv.1)
    let cl (i : Int) : Int := if 127 < i then 127 else if i < -127 then -127 else i
    let sat := overV && qs.any fun p => decide (cl p.1 ≠ p.1)
    { scale := c, ms := qs.map fun p => if overV then cl p.1 else p.1, side := [],
      flags := if overV then fOF ||| fNX ||| flagIf sat fSAT else flagIf (qs.any (·.2)) fNX }

/-- The number whose `w`-bit fields, lowest first, are the mantissas (R118). -/
def packMs (w : Nat) : List Int → Nat
  | [] => 0
  | m :: r => lowBits w m + 2 ^ w * packMs w r

/-- The bytes of a block, with its side slots and flags (R123 to R126). -/
def blkStore (rm c oth : Nat) (xs : List (Option FVal)) : List Byte × List Nat × Nat :=
  if c = 31 then
    let b := quantSC rm xs
    (leBytes 34 (b.scale + 65536 * packMs 8 b.ms), [0, 0], b.flags)
  else
    let b := quantBlock rm (blkW c) oth xs
    (leBytes (blkBytes c) (b.scale + 256 * packMs (blkW c) b.ms), b.side, b.flags)

/-- The block and slot of element `i` (R125); `rl` is ROWLEN, `tot` the elements of the access. -/
def blkOf (c rl tot i : Nat) : Nat × Nat :=
  let l := if rl = 0 then tot else rl
  if l = 0 then (0, 0)
  else ((i / l) * ceilDiv l (blkN c) + i % l / blkN c, i % l % blkN c)

/-- The elements of block `b`: the index of the element at each of its slots, none in padding (R125). -/
def blkElems (c rl tot b : Nat) : List (Option Nat) :=
  let l := if rl = 0 then tot else rl
  let per := ceilDiv l (blkN c)
  if per = 0 then [] else
  (upto 0 (blkN c)).map fun s =>
    let p := b % per * blkN c + s
    let i := b / per * l + p
    if p < l ∧ i < tot then some i else none

/-- The blocks of an access of `tot` elements (R125). -/
def blkCount (c rl tot : Nat) : Nat :=
  if tot = 0 then 0 else (blkOf c rl tot (tot - 1)).1 + 1

end Sys2Proof.Machine
end

