-- ==== Sys2Proof/Machine/Strip.lean ====
section
/-! DEFINITION. The element loop of the vector instructions (R186, R192) and the strips of the streams they read (R221
to R224, R229). -/
namespace Sys2Proof.Machine

/-- Leaves TIDX at element `i` (R42, R192). -/
def setTidx (s : State) (i : Nat) : State :=
  match s.agent with
  | .hart h => s.modHart h (fun x => { x with tidx := wd i })
  | .queue h => s.modHart h (fun x => { x with tidx := wd i })
  | .mseq c => s.modCore c (fun k => { k with mseq := { k.mseq with tidx := wd i } })
  | .cseq c => s.modCore c (fun k => { k with cseq := { k.cseq with tidx := wd i } })

/-- The part of an instruction that belongs to element `i`: its trap is ElemTrap at `i` (R106), and where it stalls it
goes on there. -/
def atElem {α : Type} (i : Nat) (x : X α) : X α := fun s =>
  match x s with
  | .ok a t => .ok a t
  | .error (.trap code v _) t => .error (.trap code v i) t
  | .error .stall t => .error .stall (setTidx t i)
  | .error (.cut n) t => .error (.cut n) t
  | .error (.fatal code v) t => .error (.fatal code v) t
  | .error (.fault f) t => .error (.fault f) t

/-- The address and bytes that element `pos` of a stream is read from: its own, the byte that holds it, or its block
(R118, R125, R221). -/
def Stream.unit (t : Stream) (pos : Nat) : W × Nat :=
  if fmtBlock t.fmt then
    (t.base + wd ((blkOf t.fmt (fld t.mfc 48 16) t.len pos).1 * blkBytes t.fmt), blkBytes t.fmt)
  else
    let w := fmtBits t.fmt
    let off := match t.stride with
      | some d => wd pos * d
      | none => wd (pos * w / 8)
    (t.base + off, if w < 8 then 1 else w / 8)

/-- The register value and flags of element `pos` of a stream from the bits of its unit (R107, R118, R125, R223). -/
def Stream.value (t : Stream) (pos raw : Nat) : Nat × Nat :=
  let rm := fld t.mfc 15 3
  let sew := 8 * 2 ^ t.sew
  if fmtBlock t.fmt then
    blkLoad (layOf sew) rm t.fmt (leBytes (blkBytes t.fmt) raw) (blkOf t.fmt (fld t.mfc 48 16) t.len pos).2
  else
    let w := fmtBits t.fmt
    fromFmt sew rm t.fmt (raw / 2 ^ (if w < 8 then pos * w % 8 else 0) % 2 ^ w)

/-- A refill of one element: its bits, or the precise fault it meets (R213, R223). -/
def fetchElem (r : Rq) (t : Stream) (pos : Nat) : X SElem := fun s =>
  let u := t.unit pos
  match loadUnit r .vector .any (if fmtWhole t.fmt then u.2 else 1) u.1 u.2 s with
  | .ok v s1 => .ok { bits := v, fault := none } s1
  | .error (.trap code va _) s1 => .ok { bits := 0, fault := some (code, va.toNat) } s1
  | .error e s1 => .error e s1

/-- The element that has arrived, or one fetched now (R222, R223). -/
def elemAt (r : Rq) (t : Stream) (pos : Nat) : X (Option SElem) :=
  if t.len ≤ pos then pure none
  else match t.fetched.find? (fun e => e.1 == pos) with
    | some e => pure (some e.2)
    | none => do return some (← fetchElem r t pos)

/-- Writes element `i` of a popped strip into its group; beyond the length it is 0, and a fault leaves it (R222,
R223). Its conversion raises no flag before the element itself is done (R114). -/
def putStrip (c : VCtx) (grp : Nat) (t : Stream) (i : Nat) (e : Option SElem) : X Unit := do
  let g := t.grp grp
  match e with
  | none => modify (fun s => s.modHart c.h (fun x => x.setElem g i 0))
  | some y =>
    match y.fault with
    | some _ => pure ()
    | none => modify (fun s => s.modHart c.h (fun x => x.setElem g i (t.value (t.cursor + i) y.bits).1))

/-- The elements of a strip of `n` from position `pos`. -/
def stripElems (r : Rq) (t : Stream) : Nat → Nat → X (List (Option SElem))
  | _, 0 => pure []
  | pos, n + 1 => do
    let e ← elemAt r t pos
    let l ← stripElems r t (pos + 1) n
    return e :: l

/-- The fault that an element met in its refill, with its position in the strip. -/
def faulted (p : Option SElem × Nat) : Option (Nat × Nat × Nat) :=
  match p.1 with
  | none => none
  | some y => y.fault.map (fun f => (p.2, f.1, f.2))

/-- The elements of a strip by their positions in the stream. -/
def arrivals (cursor : Nat) (es : List (Option SElem)) : Tab SElem :=
  es.zipIdx.filterMap (fun p => p.1.map (fun e => (cursor + p.2, e)))

/-- Pops one strip of VL elements: it is written into the group, then the cursor advances (R222, R229). -/
def popStrip (c : VCtx) (r : Rq) (grp : Nat) (t : Stream) : X Unit := do
  let es ← stripElems r t t.cursor c.vl
  eachOf (fun p => putStrip c grp t p.2 p.1) es.zipIdx
  let cur := t.cursor + c.vl
  modify (fun s => s.modHart c.h (fun x =>
    { x with streams := tins (tdel x.streams grp) grp
               { t with cursor := cur, fetched := t.fetched.filter (fun e => decide (cur ≤ e.1)) }
             popped := x.popped ++ [{ no := c.no, pc := c.pc, grp := grp, st := { t with fetched := arrivals t.cursor es }
                                      bad := es.zipIdx.filterMap faulted }] }))

/-- What an instruction does with the bound groups among its source groups before its first element: a reader whose SEW
or LMUL is not the captured one takes VILL; at element 0 it pops one strip of each (R222, log 31). Of two strips the first
pop stands where the second stalls and the instruction is stopped (R229, log 88). -/
def takeStrips (c : VCtx) (srcs : List Grp) : X Unit := do
  if c.seq then pure ()
  else
    let x := (← get).hart c.h
    let hit := x.streams.filter (fun e => srcs.any (fun g => g.overlaps (e.2.grp e.1)))
    if hit.any (fun e => fld c.vtype 0 3 != e.2.sew || fld c.vtype 3 3 != e.2.lm) then vill c
    let r ← myRq
    let t ← getTidx
    if t = 0 ∧ c.vl ≠ 0 then
      eachOf (fun e => if x.popped.any (fun p => p.no == c.no && p.grp == e.1) then pure ()
        else popStrip c r e.1 e.2) hit

/-- A popped strip in place of another (R223). -/
def swapPopped (c : VCtx) (p q : Popped) : X Unit :=
  modify (fun s => s.modHart c.h (fun x => { x with popped := x.popped.map (fun o => if o = p then q else o) }))

/-- The recorded fault of element `i` of a popped strip: it is taken; once it has been taken, the element is fetched again
(R223, log 31). -/
def strip1 (c : VCtx) (i : Nat) (p : Popped) : X Unit :=
  match p.bad.find? (fun b => b.1 == i) with
  | none => pure ()
  | some (_, 0, _) => do
    let r ← myRq
    let e ← fetchElem r p.st (p.st.cursor + i)
    match e.fault with
    | some f => trap f.1 (wd f.2)
    | none =>
      putStrip c p.grp p.st i (some e)
      swapPopped c p { p with bad := p.bad.filter (fun b => b.1 != i)
                              st := { p.st with fetched := (p.st.cursor + i, e) :: p.st.fetched } }
  | some (_, cause, va) => do
    swapPopped c p { p with bad := p.bad.map (fun b => if b.1 = i then (i, 0, va) else b) }
    trap cause (wd va)

/-- The strips that this instruction popped (R222). -/
def myStrips (c : VCtx) : X (List Popped) := do
  if c.seq then return [] else return ((← get).hart c.h).popped.filter (fun p => p.no == c.no)

/-- The recorded faults of element `i` of the strips that this instruction popped, whatever its mask (R223). -/
def stripAt (c : VCtx) (i : Nat) : X Unit := do eachOf (strip1 c i) (← myStrips c)

/-- The flags of the conversion of element `i` of a popped strip, which an active element raises once it is done (R114,
R223). -/
def stripFlag (c : VCtx) (k : KReg) (i : Nat) (p : Popped) : X Unit := do
  match p.st.fetched.find? (fun e => e.1 == p.st.cursor + i && e.2.fault.isNone) with
  | none => pure ()
  | some e => if ← kbitOf c k i then setFlags (p.st.value e.1 e.2.bits).2

/-- The flags of element `i` of the strips that this instruction popped (R114). -/
def stripFlags (c : VCtx) (k : KReg) (i : Nat) : X Unit := do eachOf (stripFlag c k i) (← myStrips c)

/-- The recorded faults of every element, for an instruction that is never left part done (R192, R223). -/
def stripAll (c : VCtx) : X Unit := atElem 0 (eachFrom (stripAt c) 0 c.vl)

/-- The flags of every element, for an instruction that is never left part done (R114, R192). -/
def stripDone (c : VCtx) (k : KReg) : X Unit := eachFrom (stripFlags c k) 0 c.vl

/-- The element loop of a vector instruction from TIDX, under mask `k` (R186, R192); the drain deadline cuts it between
elements (R67). -/
def elements (c : VCtx) (k : KReg) (f : Nat → X Unit) : X Unit := do
  let t ← getTidx
  eachFrom (fun i => do
    atElem i (do stripAt c i; f i)
    stripFlags c k i) t (c.stop - t)
  if c.cut then throw (.cut (Nat.max t c.stop))

/-- ElemWise of R186 over a destination group: `f` gives each active element its result. -/
def elemWise (c : VCtx) (k : KReg) (z : Bool) (d : Grp) (f : Nat → X Nat) : X Unit :=
  elements c k (fun i => do
    if ← kbitOf c k i then
      let r ← f i
      setVelem c d i r
    else if z then setVelem c d i 0
    else pure ())

/-- ElemWise of R186 over a destination mask. -/
def elemWiseK (c : VCtx) (k : KReg) (z : Bool) (d : KReg) (f : Nat → X Bool) : X Unit :=
  elements c k (fun i => do
    if ← kbitOf c k i then
      let r ← f i
      setKbitOf c d i r
    else if z then setKbitOf c d i false
    else pure ())

/-- The checks of a vector instruction before its elements, in the order of R96: the alignment of its groups and what
they may not overlap (R188, R190), VTYPE, what else takes VILL, the masks (R187), and the strips of its sources. -/
def vstart (i : Instr) (c : VCtx) (groups : List Grp) (clash bad masks : Bool) (srcs : List Grp) : X Unit := do
  need i (groups.all (fun g => groupOk g.g g.base) && !clash)
  checkVType c
  if bad then vill c
  checkMask c masks
  takeStrips c srcs

/-- The vector groups that a second operand names (R197). -/
def srcGroups (c : VCtx) (b : VSrc) : List Grp := (VSrc.grp c b).toList

/-- A wide operand is not allowed at SEW 64 or LMUL 8 (R188). -/
def VCtx.noWide (c : VCtx) : Bool := c.sew == 64 || c.lmul == 8

/-- Floating-point arithmetic requires SEW 16 or 32 (R189). -/
def VCtx.noFloat (c : VCtx) : Bool := c.sew != 16 && c.sew != 32

end Sys2Proof.Machine
end

