-- ==== Sys2Proof/Machine/Wait.lean ====
section
/-! DEFINITION. VWAIT (R225 to R227) and what the waiting instructions share (R59). -/
namespace Sys2Proof.Machine

/-- The wait in progress of an instruction, if it has begun (R59). -/
def waitOf (x : Hart) (i : Instr) : Option WaitRec :=
  match x.wait with
  | none => none
  | some w => if w.what = i then some w else none

/-- A wait begins: its time-out counts from now (R59). -/
def beginWait (i : Instr) : X Unit := do
  let now := (← get).clock
  onMe (fun y => { y with wait := some { what := i, start := now, met := [], expired := false, note := [] } })

/-- The time-out of the wait in progress has expired (R59). -/
def expired (x : Hart) (i : Instr) : Bool :=
  match waitOf x i with
  | none => false
  | some w => w.expired

/-- The translation and alignment of a flag's address (R226). -/
def flagCheck (r : Rq) (va : W) : X (List Piece) := checkWants r .vector .read [{ va := va, n := 8, al := 8, u := .any }]

/-- One load of a flag: its value, and whether it is poisoned (R226, R227); none while it waits, at its home or for a link,
so that the other flags are loaded meanwhile. The value that decides whether a poisoned flag
is met is the stored one behind poison or a key mismatch, 0 behind a link in its first phase after a failure, and unstated
for a home that cannot be reached (log 71). -/
def flagRead (r : Rq) (va : W) : X (Option (Nat × Bool)) := do
  match ← flagCheck r va with
  | [] => pure none
  | p :: _ =>
    if piecesHeld (← get) r .vector .read [p] then
      askPieces r [p]
      return none
    let s ← get
    let home := homeStack s p.acc p.p
    match reach s r.stack home with
    | .held => pure none
    | .unreached =>
      noteWay r.stack home
      pure (some ((Config.unstated s.ticks va.toNat).toNat, true))
    | .unanswered =>
      noteWay r.stack home
      pure (some ((Config.unstated s.ticks va.toNat).toNat, true))
    | .ok =>
      servePieces r [p]
      let v := homeRead (← get) p.acc p.p 8
      set v.2
      return some v.1

/-- A flag satisfies the comparison of a VWAIT (R225). -/
def flagMet (ge : Bool) (v want : Nat) : Bool := if ge then decide (want ≤ v) else v == want

/-- Loads each unmet flag once, in order; the elements met so far (R226, R227). -/
def pollFlags (c : VCtx) (r : Rq) (x : VWt) (met : List Nat) : List Nat → X (List Nat)
  | [] => pure met
  | i :: l => do
    let va := wd (← velem c (c.grp x.a) i)
    let want ← velem c (c.grp x.b) i
    let v ← flagRead r va
    match v with
    | none => pollFlags c r x met l
    | some p =>
      if flagMet x.ge p.1 want then
        if p.2 then trap cPOISON va
        pollFlags c r x (i :: met) l
      else pollFlags c r x met l

/-- The instant at which a wait in progress expires has passed, so that a load counts no more (R59, R226); 0 is no
time-out. -/
def pastEnd (s : State) (x : Hart) (i : Instr) (ns : Nat) : Bool :=
  match waitOf x i with
  | none => false
  | some w => w.expired || (decide (ns ≠ 0) && decide (w.start + ns < s.clock))

/-- VWAIT (R225 to R227): it waits until every active element is met or its time-out expires. -/
def execVwait (d : KReg) (x : VWt) (s : State) : Out :=
  vecX (.vwait d x) (do
    let c ← vctx
    needQueue
    let srcs := [c.grp x.a, c.grp x.b]
    vstart (.vwait d x) c srcs false (c.sew != 64) true srcs
    stripAll c
    let r ← myRq
    let hk := (← get).hart c.h
    let act := (upto 0 c.vl).filter (fun i => hk.kbit x.k.val i)
    let w := waitOf (← myHart) (.vwait d x)
    if w.isNone then
      eachOf (fun i => do
        let va ← velem c (c.grp x.a) i
        let _ ← flagCheck r (wd va)) act
      beginWait (.vwait d x)
    let old := match w with
      | none => []
      | some v => v.met
    let past := pastEnd (← get) (← myHart) (.vwait d x) (← rd x.c).toNat
    let met ← if past then pure old else pollFlags c r x old (act.filter (fun i => !old.contains i))
    if past || act.all met.contains then
      stripDone c x.k
      eachFrom (fun i => setKbitOf c d i (act.contains i && !met.contains i)) 0 c.vl
    else
      onMe (fun y => { y with wait := y.wait.map (fun v => { v with met := met }) })
      stall) s

end Sys2Proof.Machine
end

