-- ==== Sys2Proof/Machine/Join.lean ====
section
/-! DEFINITION. LJOIN, LLDT and LFLUSH (R350 to R354, R358 to R362). -/
namespace Sys2Proof.Machine

/-- The lattice type that the region of an address gives; 0 for none (R247). -/
def ltypeAt (s : State) (cid : Nat) (va : W) : Nat :=
  match regionOf (s.ctx cid) va with
  | none => 0
  | some e => if e.bad then 0 else e.lt

/-- The checks that LJOIN and LLDT share (R359 to R361): `odd` says that a register of a pair is odd. -/
def latPrep (i : Instr) (k : AKind) (va : W) (add odd : Bool) : X Acc := do
  let s ← get
  let r ← myRq
  if odd && ltypeAt s r.cid va == 9 then illegal i
  precheck r .scalar k false [(va, 1)]
  let t := ltypeAt s r.cid va
  if t = 0 ∨ (add ∧ t ≠ 10) then trap cPERM va
  let n := cellBytes t
  if va.toNat % n ≠ 0 then trap cMISALIGN va
  let a ← access r .scalar k .any 1 va n
  needApart a.1 n
  return a.1

/-- A join at the local replica, or the cause of its refusal: the key id is compared first (R353, R360). -/
def joinAt (s : State) (acc : Acc) (a n v who : Nat) (f : Nat → Nat → Nat) : State × Option Nat :=
  let s0 := (partsOf a n).foldl settleSoft s
  if tget 0 s0.keyIds (a / 128) ≠ acc.key then (s0, some cKEY)
  else if acc.lt == 5 && f32Nan v then (s0, some cMONO)
  else (latWrite s0 acc a n (f (s0.natAt a n) v) who (covOf a n), none)

/-- The value that a join brings: the pair for OR-128, else the low bits of the register (R360). -/
def joinValue (d : SReg) (t : Nat) : X Nat := do
  if t = 9 then rdPair d
  else
    let x ← rd d
    return x.toNat % 2 ^ (8 * unitBytes t)

/-- LJOIN (R360): it waits for the hart's earlier accesses and joins into the local replica; a refused join posts its
record with element 0. -/
def execLjoin (d : SReg) (off : BitVec 10) (add : Bool) (a : SReg) (s : State) : Out :=
  scalarX (.ljoin d off add a) (do
    let va := (← rd a) + imm10 off
    let acc ← latPrep (.ljoin d off add a) .write va add (d.val % 2 = 1)
    needAll
    let t := acc.lt
    let v ← joinValue d t
    let u ← get
    let base := homeAddr acc (placeOf u.sdp acc.pa)
    let slot := if t = 10 then base + 4 * acc.from_ else base
    let join (x y : Nat) : Nat := if add then Nat.min (x + y) 0xFFFFFFFF else latJoin t x y
    let r := joinAt u acc slot (unitBytes t) v (whoOf u) join
    set (match r.2 with
      | none => r.1
      | some c => postRefusal r.1 (agentHart u) acc (slot - base) 0 c)) s

/-- Sets LTMO.TO (R358). -/
def setTo (b : Bool) : X Unit := onMe (fun x => { x with ltmo := setFld x.ltmo 63 1 (b01 b) })

/-- The register value of a cell value (R361). -/
def cellWord (t v : Nat) : W := if t = 2 then sext 32 v else wd v

/-- The threshold of LLDT (R361). -/
def threshold (b : SReg) (t : Nat) : X Nat := do
  if t = 9 then rdPair b
  else
    let x ← rd b
    return if cellBytes t = 4 then x.toNat % 2 ^ 32 else x.toNat

/-- LLDT (R361): it waits until the local replica reaches the threshold or LTMO.NS expires. -/
def execLldt (d : SReg) (off : BitVec 10) (b a : SReg) (s : State) : Out :=
  scalarX (.lldt d off b a) (do
    let i : Instr := .lldt d off b a
    let va := (← rd a) + imm10 off
    let acc ← latPrep i .read va false (d.val % 2 = 1 || b.val % 2 = 1)
    let t := acc.lt
    let n := cellBytes t
    let thr ← threshold b t
    let u ← get
    let v := homeRead u acc (placeOf u.sdp acc.pa) n
    set v.2
    if v.1.2 then trap cPOISON va
    let val := cellValue t v.1.1
    let met := reaches t val thr
    if met || expired (← myHart) i then
      if t = 9 then wrPair d val else wr d (cellWord t val)
      setTo (!met)
    else
      if (waitOf (← myHart) i).isNone then beginWait i
      stall) s

/-- The leaves of the scalar tables under a table, `n` levels left: virtual base, bytes and physical base (R244). -/
def svLeaves (s : State) : Nat → Nat → Nat → List (Nat × Nat × Nat)
  | 0, _, _ => []
  | n + 1, table, vbase =>
    let size := 4096 * 512 ^ n
    (upto 0 512).flatMap (fun i =>
      let pte := rawNat s (table + 8 * i) 8
      let v := vbase + i * size
      if pteBad pte then []
      else if pteLeaf pte then
        match leafEntry 0 v n pte 0 with
        | none => []
        | some e => [(v, size, e.pbase)]
      else if n = 0 ∨ pteBadNode pte then []
      else svLeaves s n (ptePpn pte * 4096) v)

/-- The pages that a context's tables map (R244, R246). -/
def mapsOf (s : State) (cid : Nat) : List (Nat × Nat × Nat) :=
  let c := s.ctx cid
  c.vpt.map (fun e => (e.vpn * 0x200000, pageBytes e.psz, e.ppn * 0x200000)) ++
    svLeaves s 5 (svRoot s cid) 0

/-- The virtual addresses at which a page maps a bank-linear address, whichever stack its physical address names: that of
the replica at hand is used (R351). -/
def mappedAt (m : Nat × Nat × Nat) (a : Nat) : List W :=
  ((upto 0 16).filter (fun k => decide (m.2.2 ≤ k * 2 ^ 36 + a) && decide (k * 2 ^ 36 + a < m.2.2 + m.2.1))).map
    (fun k => wd (m.1 + (k * 2 ^ 36 + a - m.2.2)))

/-- The lattice type of a line of a stack for a context, by its number within the stack; 0 for a line that is none
(R351, R362). -/
def lineType (s : State) (cid : Nat) (maps : List (Nat × Nat × Nat)) (line : Nat) : Nat :=
  (((maps.flatMap (fun m => mappedAt m (line * 128))).map (ltypeAt s cid)).find? (fun t => t != 0)).getD 0

/-- The lines of a context's lattice cells that some replica lists (R362): number within the stack and lattice type. In
every other line all replicas hold zero. -/
def latLines (s : State) (cid : Nat) : List (Nat × Nat) :=
  let maps := mapsOf s cid
  let lines := ((s.mem.map (·.1)).filter (fun a => decide (a < interBase))).map (fun a => a % 2 ^ 36 / 128)
  (lines.eraseDups.map (fun l => (l, lineType s cid maps l))).filter (fun e => e.2 != 0)

/-- The 128 bytes of a stack's replica of a line. -/
def replicaAt (s : State) (stack line : Nat) : Nat := s.natAt (stack * 2 ^ 36 + line * 128) 128

/-- Each unit of a line is at or above the same unit of another (R350). -/
def lineAbove (t x y : Nat) : Bool :=
  let u := unitBytes t
  (upto 0 (128 / u)).all (fun i =>
    atOrAbove t (x / 2 ^ (8 * u * i) % 2 ^ (8 * u)) (y / 2 ^ (8 * u * i) % 2 ^ (8 * u)))

/-- What a flush notes: the replica of a stack (R362). -/
def noteLines (s : State) (cid stack : Nat) : List (Nat × Nat × Nat) :=
  (latLines s cid).map (fun e => (e.1, e.2, replicaAt s stack e.1))

/-- Every replica is at or above what was noted (R362). -/
def flushed (s : State) (note : List (Nat × Nat × Nat)) : Bool :=
  note.all (fun e => (upto 0 16).all (fun t => lineAbove e.2.1 (replicaAt s t e.1) e.2.2))

/-- LFLUSH (R362): while it waits, rounds run back to back (R356). -/
def execLflush (s : State) : Out :=
  scalarX .lflush (do
    needQueue
    needPosted
    let t ← get
    let x ← myHart
    match waitOf x .lflush with
    | none =>
      let note := noteLines t x.cid (coreStack (agentCore t))
      if !flushed t note then
        onMe (fun y => { y with wait := some { what := .lflush, start := t.clock, met := [], expired := false,
                                               note := note } })
        stall
    | some w => if !flushed t w.note then stall) s

end Sys2Proof.Machine
end

