-- ==== Sys2Proof/Machine/Col.lean ====
section
/-! DEFINITION. The Col: COLST and COLWAIT (R378, R379), the broadcast of entries (R372 to R375), layer states, replay
and resynchronisation (R376, R377), and the time-outs of the waiting instructions (R59). -/
namespace Sys2Proof.Machine

/-- A range of a COLST with its translation and the checks of the VECTOR port (R213, R378). -/
def colResolve (s : State) (r : Rq) (e : W × Nat) : Except Stop (Acc × Place) :=
  match vpTranslate s r .write e.1 with
  | .error c => .error (.trap c e.1 0)
  | .ok pa => checkPlace s r .vector .read e.1 e.2 pa

/-- The places of every range of a COLST: the faults of the VECTOR port over all ranges come first, and then the permission
fault of a range outside every Col region (R213, R378). -/
def colPlaces (r : Rq) (va : W) (l : List (W × Nat)) : X (List (Nat × Nat × Acc)) := do
  let s ← get
  let rs := l.map (colResolve s r)
  match unitFault rs with
  | some x => throw x
  | none => pure ()
  let at_ (e : Except Stop (Acc × Place)) : Option (Nat × Nat × Acc) := match e with
    | .ok (acc, .col t off) => some (t, off, acc)
    | _ => none
  let ps := rs.filterMap at_
  if ps.length < l.length then trap cPERM va
  return ps

/-- The entries of `n` bytes at an offset of the region, one for each aligned 32-byte chunk (R374); the first argument
bounds their number. -/
def colEntries (h : Nat) : Nat → Nat → Nat → Nat → List ColEntry
  | 0, _, _, _ => []
  | k + 1, off, n, data =>
    let lo := off % 32
    let m := Nat.min n (32 - lo)
    if n = 0 then []
    else
      { chunk := off / 32, data := BitVec.ofNat 256 (data % 2 ^ (8 * m) * 2 ^ (8 * lo))
        mask := BitVec.ofNat 32 ((2 ^ m - 1) * 2 ^ lo), hart := h } :: colEntries h k (off + m) (n - m) (data / 2 ^ (8 * m))

/-- COLST (R378): its entries join the Col order of the stack as one; it completes when they have been broadcast. It waits as
a vector store does (R168, R180); the routers of a way that fails report it (R36). -/
def execColst (d : VReg) (off : BitVec 10) (b a : SReg) (s : State) : Out :=
  vecX (.colst d off b a) (do
    let n := (← rd b).toNat
    let va := (← rd a) + imm10 off
    if n ≠ 0 then
      if va.toNat % 4 ≠ 0 ∨ n % 4 ≠ 0 ∨ 24576 < n then trap cMISALIGN va
      let r ← myRq
      let ranges := piecesOf va n
      let ps ← colPlaces r va ranges
      match ps with
      | [] => pure ()
      | p :: _ =>
        let t := p.1
        if ps.any (fun q => q.1 != t) then trap cPERM va
        let s ← get
        let h := agentHart s
        let x := s.hart h
        let way := reach s r.stack t
        if way = .held || svfHolds s .vector .write || sptHeld s .vector .write then stall
        let bytes := (upto 0 n).map (x.vbyte d.val)
        let es := (ranges.zip ps).flatMap (fun e =>
          colEntries h 6 e.2.2.1 e.1.2 (leNat ((bytes.drop (e.1.1 - va).toNat).take e.1.2)))
        if way ≠ .unreached then
          modify (fun s => (s.modStack t (fun k => { k with colQ := k.colQ ++ es })).modHart h
            (fun y => { y with colPend := y.colPend + es.length }))
        if way ≠ .ok then modify (fun s => postRefusal (logReach s r.stack t) h p.2.2 0 0 cREMOTE)) s

/-- A COLST of the hart has not completed (R379). -/
def colWaits (x : Hart) : Bool :=
  decide (x.colPend ≠ 0) || x.vq.any (fun e => match e.instr with
    | .colst _ _ _ _ => true
    | _ => false)

/-- COLWAIT in mode 0 (R379). -/
def execColwait (d : SReg) (s : State) : Out :=
  scalarX (.colwait d) (do
    let x ← myHart
    if colWaits x then stall
    let s ← get
    wr d (wd (s.stack (coreStack (agentCore s))).colseq)) s

/-- What the waiting forms of COLWAIT share: the value and whether the condition holds (R358, R379). -/
def colTimed (i : Instr) (d : SReg) (val : W) (met : Bool) : X Unit := do
  if met || expired (← myHart) i then
    wr d val
    setTo (!met)
  else
    if (waitOf (← myHart) i).isNone then beginWait i
    stall

/-- A sleeping layer is woken: it is in CATCHUP and not yet powered (R376). -/
def wakeLayer (st : Nat) (s : State) (l : Nat) : State :=
  s.modStack st (fun t => t.modLayer l (fun x =>
    if x.st = .asleep then { x with st := .catchup, powered := false } else x))

/-- The mask of the layers among `m` that are CURRENT (R379). -/
def currentMask (t : Stack) (m : Nat) : Nat :=
  ((setBitsOf m 16).filter (fun l => (t.layer l).st = .current)).foldl (fun n l => n + 2 ^ l) 0

/-- COLWAIT in mode 1 (R376, R379). -/
def execColwaitLayers (d a : SReg) (s : State) : Out :=
  scalarX (.colwaitLayers d a) (do
    let m := (← rd a).toNat % 65536
    let st := coreStack (← myCore)
    modify (fun s => (setBitsOf m 16).foldl (wakeLayer st) s)
    let have_ := currentMask ((← get).stack st) m
    colTimed (.colwaitLayers d a) d (wd have_) (have_ == m)) s

/-- COLWAIT in mode 2 (R379). -/
def execColwaitSeq (d a : SReg) (s : State) : Out :=
  scalarX (.colwaitSeq d a) (do
    let want := (← rd a).toNat
    let n := ((← get).stack (coreStack (← myCore))).colseq
    colTimed (.colwaitSeq d a) d (wd n) (decide (want ≤ n))) s

/-- The bytes of an entry applied by `put` at their offsets. -/
def applyEntry {α : Type} (put : α → Nat → Byte → α) (e : ColEntry) (x : α) : α :=
  (setBitsOf e.mask.toNat 32).foldl
    (fun x i => put x (e.chunk * 32 + i) (BitVec.ofNat 8 (e.data.toNat / 2 ^ (8 * i)))) x

/-- A layer applies the entry with sequence number `n` (R374, R376). -/
def Layer.take (n : Nat) (e : ColEntry) (x : Layer) : Layer :=
  { x with mirror := applyEntry (fun m a b => tput 0 m a b) e x.mirror, horizon := n }

/-- A layer that is powered and catching up (R376, R377). -/
def Layer.behind (x : Layer) : Bool := decide (x.st = .catchup) && x.powered

/-- The layers of a stack that catch up. -/
def Stack.behind (t : Stack) : List Nat := (upto 0 16).filter (fun l => (t.layer l).behind)

/-- Changes every layer of a stack. -/
def Stack.eachLayer (t : Stack) (f : Layer → Layer) : Stack := (upto 0 16).foldl (fun t l => t.modLayer l f) t

/-- The base die broadcasts the oldest entry of the Col order: its mirror and every CURRENT layer latch it (R373 to
R376). -/
def broadcastEntry (s : State) (st : Nat) (e : ColEntry) : State :=
  let t := s.stack st
  let n := t.colseq + 1
  let log := t.colLog ++ [e]
  let t1 := { t with colseq := n, colQ := t.colQ.tail, colLog := log.drop (log.length - 4096) }
  let t2 := t1.eachLayer (fun x => if x.st = .current then x.take n e else x)
  let s1 := applyEntry (fun s a b => State.putByte s (colAddr st a) b) e (s.setStack st t2)
  if e.hart < 512 then s1.modHart e.hart (fun x => { x with colPend := x.colPend - 1 }) else s1

/-- COL_ENTRY_BROADCAST (R374): in an entry notch that no catch-up holds (R372, R377). -/
def execEvColEntryBroadcast (st : Nat) (s : State) : Out :=
  let t := s.stack st
  match t.colQ with
  | [] => .next s
  | e :: _ => if 64 ≤ fld t.colalloc 0 7 ∨ !t.behind.isEmpty then .next s else .next (broadcastEntry s st e)

/-- A layer whose horizon is COLSEQ is CURRENT (R377). -/
def Layer.settle (seq : Nat) (x : Layer) : Layer := if x.behind ∧ x.horizon = seq then { x with st := .current } else x

/-- COL_REPLAY (R377): one entry of the log goes out in an entry notch, the next that the layer furthest behind among
those within the log needs. -/
def execEvColReplay (st : Nat) (s : State) : Out :=
  let t := s.stack st
  let ls := t.behind.filter (fun l => decide (t.colseq - (t.layer l).horizon ≤ 4096))
  match ls.map (fun l => (t.layer l).horizon) with
  | [] => .next s
  | h :: hs =>
    let lo := hs.foldl Nat.min h
    if 64 ≤ fld t.colalloc 0 7 then .next s
    else match t.colLog[t.colLog.length - (t.colseq - lo)]? with
      | none => .next s
      | some e =>
        let f (x : Layer) : Layer := if x.behind ∧ x.horizon = lo then (x.take (lo + 1) e).settle t.colseq else x
        .next (s.setStack st (t.eachLayer f))

/-- COL_RESYNC (R377): a layer beyond the log takes the whole mirror and is CURRENT. -/
def execEvColResync (st layer : Nat) (s : State) : Out :=
  let t := s.stack st
  let x := t.layer layer
  if layer < 16 ∧ x.behind ∧ 4096 < t.colseq - x.horizon then
    let lo := colAddr st 0
    let m := (s.mem.filter (fun e => decide (lo ≤ e.1) && decide (e.1 < lo + 0x40000))).map (fun e => (e.1 - lo, e.2))
    .next (s.modStack st (fun t => t.modLayer layer (fun x =>
      { x with mirror := m, horizon := t.colseq, st := .current })))
  else .next s

/-- COL_FRAME_BOUNDARY (R372): a written COLALLOC takes effect. -/
def execEvColFrameBoundary (st : Nat) (s : State) : Out :=
  .next (s.modStack st (fun t => { t with colalloc := t.colallocNew.getD t.colalloc, colallocNew := none }))

/-- LAYER_POWERED (R376). -/
def execEvLayerPowered (st layer : Nat) (s : State) : Out :=
  let x := (s.stack st).layer layer
  if layer < 16 ∧ x.st = .catchup ∧ !x.powered then
    .next (s.modStack st (fun t => t.modLayer layer (fun x => ({ x with powered := true }).settle t.colseq)))
  else .next s

/-- The wait of a hart reaches its time-out of `ns` nanoseconds; 0 is none (R59). -/
def expire (s : State) (h : Nat) (w : WaitRec) (ns : Nat) : State :=
  if ns ≠ 0 ∧ w.start + ns ≤ s.clock then
    s.modHart h (fun x => { x with wait := some { w with expired := true } })
  else s

/-- S(n) of the instruction that a hart waits in: as captured where it waits at the head of the queue (R191). -/
def waitReg (x : Hart) (n : SReg) : W :=
  match x.vq with
  | [] => x.rd n
  | e :: _ => rdS e.s n.val

/-- VWAIT_TIME_OUT (R226): the time-out is S(C) of the waiting VWAIT. -/
def execEvVwaitTimeOut (h : Nat) (s : State) : Out :=
  match (s.hart h).wait with
  | none => .next s
  | some w =>
    match w.what with
    | .vwait _ x => .next (expire s h w (waitReg (s.hart h) x.c).toNat)
    | _ => .next s

/-- LLDT_TIME_OUT (R361). -/
def execEvLldtTimeOut (h : Nat) (s : State) : Out :=
  match (s.hart h).wait with
  | none => .next s
  | some w =>
    match w.what with
    | .lldt _ _ _ _ => .next (expire s h w (fld (s.hart h).ltmo 0 32))
    | _ => .next s

/-- COLWAIT_TIME_OUT (R379). -/
def execEvColwaitTimeOut (h : Nat) (s : State) : Out :=
  match (s.hart h).wait with
  | none => .next s
  | some w =>
    match w.what with
    | .colwaitLayers _ _ => .next (expire s h w (fld (s.hart h).ltmo 0 32))
    | .colwaitSeq _ _ => .next (expire s h w (fld (s.hart h).ltmo 0 32))
    | _ => .next s

end Sys2Proof.Machine
end

