-- ==== Sys2Proof/Machine/Sched.lean ====
section
/-! DEFINITION. The node scheduler's operations: graph records (R412 to R414), acceptance and stamps (R48), placement
(R52, R53), slices and reclaiming (R62 to R66), and suspended copy nodes (R56, R315). -/
namespace Sys2Proof.Machine

/-- Bits lo + w − 1 down to lo of a record. -/
def bitsOf (x lo w : Nat) : Nat := x / 2 ^ lo % 2 ^ w

/-- The sum of a list. -/
def sumOf (l : List Nat) : Nat := l.foldl (· + ·) 0

/-- Bytes of a record whose header is `h`: header, nodes, edges, operands (R412). -/
def recBytes (h : Nat) : Nat :=
  (64 + 128 * bitsOf h 24 8 + 4 * bitsOf h 32 16 + 15) / 16 * 16 + 16 * bitsOf h 48 16

/-- The header is well formed (R412, R414). -/
def headerOk (h : Nat) : Bool :=
  bitsOf h 0 16 == 0x4752 && bitsOf h 16 8 == 1 && decide (1 ≤ bitsOf h 24 8) && decide (bitsOf h 24 8 ≤ 31) &&
    bitsOf h 128 384 == 0 && decide (recBytes h ≤ 4096)

/-- Node entry `i` of a record (R412). -/
def entryAt (r i : Nat) : Nat := bitsOf r (512 + 1024 * i) 1024

/-- The edges of a record, as predecessor and successor (R413). -/
def recEdges (r : Nat) : List (Nat × Nat) :=
  let base := 512 + 1024 * bitsOf r 24 8
  (upto 0 (bitsOf r 32 16)).map (fun i => (bitsOf r (base + 32 * i) 16, bitsOf r (base + 32 * i + 16) 16))

/-- The operand entries of a record, each 128 bits (R412, R413). -/
def recOps (r : Nat) : List Nat :=
  let base := 8 * ((64 + 128 * bitsOf r 24 8 + 4 * bitsOf r 32 16 + 15) / 16 * 16)
  (upto 0 (bitsOf r 48 16)).map (fun i => bitsOf r (base + 128 * i) 128)

/-- Harts of crew `c` of a node entry, and the request of hart `h` (R413). -/
def entryNh (e c : Nat) : Nat := bitsOf e (16 + 4 * c) 4
/-- The slice request of hart `h` of crew `c` (R413). -/
def entryReq (e c h : Nat) : Nat := bitsOf e (256 + 8 * (8 * c + h)) 8

/-- A node entry is well formed (R414). A band node with no crew or with more than four is not (R413, log 92). -/
def entryOk (e : Nat) : Bool :=
  let kind := bitsOf e 0 4
  let nc := bitsOf e 4 3
  let crew (c : Nat) : Bool :=
    let n := entryNh e c
    if c < nc then
      decide (1 ≤ n) && decide (n ≤ 8) && decide (sumOf ((upto 0 8).map (entryReq e c)) ≤ 48) &&
        (upto 0 8).all (fun h =>
          let q := entryReq e c h
          if h < n then q % 4 == 0 && decide (q ≤ 48) else q == 0)
    else n == 0 && (upto 0 8).all (fun h => entryReq e c h == 0)
  decide (1 ≤ kind) && decide (kind ≤ 3) && bitsOf e 7 9 == 0 && bitsOf e 149 107 == 0 &&
    (if kind = 1 then decide (1 ≤ nc) && decide (nc ≤ 4) && bitsOf e 512 512 == 0 else nc == 0) &&
    (upto 0 4).all crew && (kind != 3 || decide (bitsOf e 146 3 ≤ 3))

/-- A record is not malformed (R414). -/
def recordOk (r : Nat) : Bool :=
  let nn := bitsOf r 24 8
  headerOk r && (upto 0 nn).all (fun i => entryOk (entryAt r i)) &&
    (recEdges r).all (fun e => decide (e.1 < e.2) && decide (e.2 < nn)) &&
    (recOps r).all (fun o => bitsOf o 57 2 != 0 && bitsOf o 59 5 == 0)

/-- The agent for which placement translates an operand in the scalar tables (R53). -/
def placeRq (cid stack : Nat) : Rq := { cid := cid, stack := stack, lvl := .n, who := 0 }

/-- The entries of a context's vector page table that cover an address (R246). -/
def vptCovers (s : State) (cid : Nat) (va : W) : List VptE :=
  let v := fld va 0 57
  (s.ctx cid).vpt.filter (fun e => decide (e.vpn * 0x200000 ≤ v) && decide (v < e.vpn * 0x200000 + pageBytes e.psz))

/-- The lines of a declared operand: addresses and bytes (R53, R413). -/
def operandLines (o : Nat) : List (W × Nat) := piecesOf (sext 57 (bitsOf o 0 57)) (bitsOf o 64 32)

/-- The acceptance of a record waits: a walk for one of its operands reads a locked row (R53, R263). -/
def placeWaits (s : State) (cid stack r : Nat) : Bool :=
  s.veldBusy && (recOps r).any (fun o => (operandLines o).any (fun p =>
    (vptCovers s cid p.1).isEmpty && walkWaits s (placeRq cid stack) p.1))

/-- The physical address of a declared operand byte, as placement translates it; none for a byte that no table translates
or that two present entries of the vector page table cover (R53, R246). -/
def placeAddr (s : State) (cid stack mode : Nat) (va : W) : Option Nat :=
  match vptCovers s cid va with
  | [e] => if vaCanon va then some (e.ppn * 0x200000 + (fld va 0 57 - e.vpn * 0x200000)) else none
  | _ :: _ :: _ => none
  | [] =>
    match (svTranslate s (placeRq cid stack) (if mode = 1 then .read else .write) va).1 with
    | .ok pa => some pa
    | .error _ => none

/-- The stack that homes a declared operand byte; none for a byte that counts for no stack (R53). Of the bytes at holes,
those of the special rows of a bank count for none, and those of the on-chip window for the stack of their slot (log 99). -/
def operandStack (s : State) (cid stack mode : Nat) (va : W) : Option Nat :=
  match placeAddr s cid stack mode va with
  | none => none
  | some pa =>
    let c := s.ctx cid
    let ub := match regionOf c va with
      | some d => d.ub && !d.bad
      | none => false
    if ub && (pa < interEnd) then some (c.curStack pa)
    else match placeOf s.sdp pa with
      | .dram lin _ => some (linStack lin)
      | .ext _ => none
      | .spad k _ => some (coreStack k)
      | .vreg h _ => some (stackOf h)
      | .tile k _ => some (coreStack k)
      | .latA k _ => some (coreStack k)
      | .latB k _ => some (coreStack k)
      | .creg h _ => some (stackOf h)
      | .col t _ => some t
      | .route t _ => some t
      | .hole => if chipBase ≤ pa ∧ pa < chipEnd then some ((pa - chipBase) / 2 ^ 32) else none

/-- Bytes of a node's operands by stack: each range in order, a line at a time (R53). -/
def operandBytes (s : State) (cid stack : Nat) (ops : List Nat) (st : Nat) : Nat :=
  sumOf ((ops.flatMap (fun o =>
    (operandLines o).map (fun p => if operandStack s cid stack (bitsOf o 57 2) p.1 = some st then p.2 else 0))))

/-- The stack of a node: the one that homes most of its declared bytes, ties to the queue's own, then to the lowest
(R53). -/
def placementOf (s : State) (cid stack : Nat) (ops : List Nat) : Nat :=
  let bytes := (upto 0 16).map (operandBytes s cid stack ops)
  let best := bytes.foldl Nat.max 0
  if bytes.getD stack 0 = best then stack else (bytes.findIdx (fun b => b == best))

/-- The node that entry `i` of a record describes (R48, R413). The model settles two points: two queues of one number on
different stacks can agree in all four keys of R48, and the number of the queue's stack is then a fifth (log 76); the stack
of the node is computed once, with the tables as they stand when its graph is accepted (log 77). -/
def nodeOf (s : State) (r i gi st q cid time order : Nat) : Node :=
  let e := entryAt r i
  let kind := bitsOf e 0 4
  let nc := if kind = 1 then bitsOf e 4 3 else 0
  let label := bitsOf e 32 32
  { kind := if kind = 1 then .band else if kind = 2 then .veld else .copy
    st := if (recEdges r).any (fun p => p.2 == i) then .waiting else .ready
    graph := gi, ix := i, stack := placementOf s cid st ((recOps r).filter (fun o => bitsOf o 96 32 == label))
    prio := ((s.stack st).queue q).prio, cid := cid, stamp := [time, q, order, i, st], readyAt := s.clock, waited := 0
    pc := wd (bitsOf e 64 64), harts := (upto 0 nc).map (entryNh e)
    reqs := (upto 0 nc).map (fun c => (upto 0 (entryNh e c)).map (entryReq e c))
    pay := bitsOf e 512 512, vl := bitsOf e 128 18, sewc := bitsOf e 146 3, label := label
    cursor := none, band := none, fword := 0, fva := 0 }

/-- Graphs of a queue that are accepted and not complete (R411). -/
def liveGraphs (s : State) (st q : Nat) : Nat :=
  (s.graphs.filter (fun g => g.2.stack == st && g.2.queue == q && !g.2.complete)).length

/-- A queue accepts a graph: it takes the queue's next sequence number and its nodes their stamps (R48 to R50, log
32). -/
def acceptGraph (s : State) (st q cid time r : Nat) : State × Nat :=
  let h := (s.stack st).queue q
  let seq := (h.gseq + 1) % 65536
  let gi := s.fresh
  let nn := bitsOf r 24 8
  let nodes := (upto 0 nn).map (fun i => (gi + 1 + i, nodeOf s r i gi st q cid time h.order))
  let g : Graph := { stack := st, queue := q, seq := seq, cid := cid, compl := wd (bitsOf r 64 64),
                     nodes := nodes.map (·.1), edges := recEdges r, cend := false, exit := none, complete := false, flush := none }
  let s1 := nodes.foldl (fun u p => u.setNode p.1 p.2) (s.setGraph gi g)
  ({ s1.modStack st (fun t => t.modQueue q (fun k => { k with gseq := seq, order := k.order + 1, st := .active })) with
     fresh := gi + nn + 1 }, seq)

/-- How long a node has waited while READY (R54). -/
def Node.waitTime (n : Node) (s : State) : Nat := n.waited + (if n.st = .ready then s.clock - n.readyAt else 0)

/-- The effective priority of a node (R54). -/
def effPrio (s : State) (n : Node) : Nat :=
  if n.prio ≤ 1 then n.prio
  else
    let steps := n.waitTime s / 2000000
    if n.prio ≤ steps + 1 then 1 else n.prio - steps

/-- The order of stamps (R48). -/
def stampLt : List Nat → List Nat → Bool
  | [], [] => false
  | [], _ :: _ => true
  | _ :: _, [] => false
  | a :: l, b :: m => decide (a < b) || (a == b && stampLt l m)

/-- A node goes before another in the ready pool (R54). -/
def nodeBefore (s : State) (a b : Node) : Bool :=
  decide (effPrio s a < effPrio s b) || (effPrio s a == effPrio s b && stampLt a.stamp b.stamp)

/-- Puts a node in its place in the order of the ready pool. -/
def insNode (s : State) (x : Nat × Node) : List (Nat × Node) → List (Nat × Node)
  | [] => [x]
  | y :: l => if nodeBefore s x.2 y.2 then x :: y :: l else y :: insNode s x l

/-- The ready pool of a stack in dispatch order (R54). -/
def readyPool (s : State) (st : Nat) : List (Nat × Node) :=
  (s.nodes.filter (fun e => decide (e.2.st = .ready) && e.2.stack == st)).foldl (fun l x => insNode s x l) []

/-- A copy node leaves the copy engine and returns to READY with its cursor (R56, R315). -/
def suspendCopyNode (s : State) (core : Nat) : State :=
  match (s.core core).nodeCopy with
  | none => s
  | some x =>
    let s1 := s.modCore core (fun c => { c with nodeCopy := none })
    match x.node with
    | none => s1
    | some n => s1.modNode n (fun y => { y with st := .ready, cursor := some x, readyAt := s.clock, waited := 0 })

/-- The 64 bytes of a descriptor at a scratchpad offset (R294). -/
def descAt (s : State) (core off : Nat) : Nat := s.natAt (spadAddr core off) 64

/-- The copy that an engine runs resumes after a halt: it reads its descriptor again (R295, R296). The others
of the engine have not begun and have not stopped. -/
def rereadCopy (s : State) (core : Nat) : State :=
  s.modCore core (fun k => match k.copies with
    | [] => k
    | x :: l => if x.x then k else { k with copies := { x with body := descAt s core x.desc } :: l })

/-- The faulted copies of an engine resume: each COPY reads its descriptor again (R287, R295, R296). -/
def resumeCopies (s : State) (core : Nat) : State :=
  let one (x : CopyCtx) : CopyCtx :=
    { x with fault := none, body := if x.fault.isSome && !x.x then descAt s core x.desc else x.body }
  s.modCore core (fun k => { k with copies := k.copies.map one })

/-- Free harts of a core. -/
def freeHarts (s : State) (core : Nat) : List Nat := (coreHarts core).filter (fun h => !(s.hart h).live)

/-- Slices that the harts of a core hold or are to hold (R60, R65). -/
def usedSlices (s : State) (core : Nat) : Nat :=
  sumOf ((coreHarts core).map (fun h => if (s.hart h).live then Nat.max (s.hart h).cur (s.hart h).next else 0))

/-- Slices of a core promised to READY nodes other than `n` that wait for lane reclaiming: the whole request of such a node,
so that slices which were free when the reclaiming started are kept for it too, beside those that pass (R66, log 84). -/
def promised (s : State) (core n : Nat) : Nat :=
  sumOf ((s.bands.filterMap (·.2.incoming) ++ s.arriving.map (·.1)).map (fun m =>
    match s.node? m with
    | none => 0
    | some x => if m ≠ n ∧ x.stack = coreStack core ∧ x.st = NState.ready then sumOf (x.reqs.getD (core % 4) []) else 0))

/-- Free slices of a core for node `n` (R52). -/
def freeSlices (s : State) (core n : Nat) : Nat := 48 - usedSlices s core - promised s core n

/-- The core may take a crew of the context: it is the resident or the incoming one there, or the core holds no other than
the resident one and node `n` comes by lane reclaiming from it (R45, R271). -/
def coreAdmits (s : State) (core cid n : Nat) : Bool :=
  let k := s.core core
  match k.resident with
  | none => true
  | some r => r == cid || k.incoming == some cid || (k.incoming.isNone && (s.arriving.contains (n, r) ||
      s.bands.any (fun e => e.2.incoming == some n && e.2.stack == coreStack core && e.2.cid == r)))

/-- A fresh band fits on its stack (R45, R52). -/
def bandFits (s : State) (n : Nat) (x : Node) : Bool :=
  x.harts.zipIdx.all (fun p =>
    let core := x.stack * 4 + p.2
    decide (p.1 ≤ (freeHarts s core).length) && decide (sumOf (x.reqs.getD p.2 []) ≤ freeSlices s core n) &&
      coreAdmits s core x.cid n)

/-- The hart that the repeated step of R65 lowers: the largest NEXT above 4, ties to the highest HARTID. -/
def lowerPick (s : State) (hs : List Nat) : Option Nat :=
  hs.foldl (fun best h =>
    if (s.hart h).next ≤ 4 then best
    else match best with
      | none => some h
      | some b => if (s.hart b).next ≤ (s.hart h).next then some h else best) none

/-- The repeated step of R65: `n` times 4 slices from NEXT of these harts, with RCL set where `rcl` holds (R66). -/
def lowerSteps (hs : List Nat) (rcl : Bool) : Nat → State → State
  | 0, s => s
  | n + 1, s =>
    match lowerPick s hs with
    | none => s
    | some h => lowerSteps hs rcl n (s.modHart h (fun x => { x with next := x.next - 4, rcl := x.rcl || rcl }))

/-- The sum of NEXT over the live harts of a core (R65). -/
def sumNext (s : State) (core : Nat) : Nat :=
  sumOf ((coreHarts core).map (fun h => if (s.hart h).live then (s.hart h).next else 0))

/-- The harts of a core that are live, in HARTID order. -/
def liveHarts (s : State) (core : Nat) : List Nat := (coreHarts core).filter (fun h => (s.hart h).live)

/-- A power-driven reduction is pending on a core: some NEXT is below CUR without RCL (R65). -/
def reductionPending (s : State) (core : Nat) : Bool :=
  (liveHarts s core).any (fun h => decide ((s.hart h).next < (s.hart h).cur) && !(s.hart h).rcl)

/-- NEXT of the harts of a core falls until the sum fits the ceiling (R65). -/
def fitCeiling (s : State) (core : Nat) : State :=
  let overV := sumNext s core - (s.core core).ceiling
  let s1 := lowerSteps (liveHarts s core) false (ceilDiv overV 4) s
  let since := match (s.core core).reduceAt with
    | some t => some t
    | none => some s.clock
  let at_ := if reductionPending s1 core then since else none
  s1.modCore core (fun c => { c with reduceAt := at_ })

/-- NEXT of one hart with RCL = 0 rises towards REQ in steps of 4 within the ceiling and the free slices (R65). -/
def raiseHart (core h : Nat) : Nat → State → State
  | 0, s => s
  | n + 1, s =>
    let x := s.hart h
    let room := decide (x.next + 4 ≤ x.cur) || decide (4 ≤ 48 - usedSlices s core - promised s core 0)
    if !x.rcl && decide (x.next + 4 ≤ x.req) && decide (sumNext s core + 4 ≤ (s.core core).ceiling) && room then
      raiseHart core h n (s.modHart h (fun y => { y with next := y.next + 4 }))
    else s

/-- NEXT rises, lowest HARTID first (R65). -/
def raiseNext (s : State) (core : Nat) : State :=
  (liveHarts s core).foldl (fun s h => raiseHart core h 12 s) s

/-- The numbers of a context's copy nodes on TLC3 of a core that have not ended (R315, R426). -/
def liveNumbers (s : State) (cid core : Nat) : List Nat :=
  s.nodes.filterMap (fun e => match e.2.cursor with
    | none => none
    | some x => if x.cid = cid ∧ x.core = core ∧ !e.2.st.final then some x.opno else none)

/-- A context's timelines on a core start at 0 when a crew of it is placed where none was; one with an operation
outstanding goes on: one of its copy nodes, be it suspended, counts there still (R260, R315, R426, log 33). -/
def freshTimelines (s : State) (cid core : Nat) : State :=
  (upto 0 4).foldl (fun s t =>
    let k := tlKey cid core t
    let x := s.tl k
    if x.cnt = x.acc ∨ (x.err.isSome ∧ !(decide (t = 3) && !(liveNumbers s cid core).isEmpty)) then
      { s with timelines := tput Timeline.reset s.timelines k Timeline.reset } else s) s

/-- The package core whose registers lie at a place. -/
def placeCore : Place → Option Nat
  | .vreg h _ => some (coreOf h)
  | .creg h _ => some (coreOf h)
  | .tile c _ => some c
  | .latA c _ => some c
  | .latB c _ => some c
  | .hole => none
  | .dram _ _ => none
  | .spad _ _ => none
  | .col _ _ => none
  | .route _ _ => none
  | .ext _ => none

/-- Crews of a context on these cores stop in this step, by suspension or TKILL (R230). -/
def noteStop (s : State) (cid : Nat) (cores : List Nat) : State :=
  { s with crewStops := cores.foldl (fun t c => tput 0 t (c * 65536 + cid) s.ticks) s.crewStops }

/-- A core takes a crew of a context: where none of it is resident, tiles and latches read +0 (R270, R271). -/
def enterCore (s : State) (core cid : Nat) : State :=
  let saved := s.bands.any (fun e => decide (e.2.phase = .suspended ∨ e.2.phase = .saving) && e.2.cid == cid &&
    e.2.stack == coreStack core && decide (core % 4 < e.2.crews.length))
  let s0 := flushParts (fun w => placeCore (placeOf s.sdp w.pa) == some core)
    { s with crewStops := s.crewStops.filter (fun e => e.1 / 65536 != core) }
  let s1 := if s0.onCore cid core || saved then s0 else freshTimelines s0 cid core
  s1.modCore core (fun c =>
    match c.resident with
    | none => { c.clearMatrix with resident := some cid }
    | some r => if r = cid then c else { c with incoming := some cid })

/-- Places member `m` of crew `c` on hart `h` (R41, R46, R62), which is one of the lowest free ones (log 108). -/
def placeHart (x : Node) (g : Graph) (bi c m h : Nat) (s : State) : State :=
  let nh := x.harts.getD c 0
  let req := (x.reqs.getD c []).getD m 0
  s.modHart h (fun y =>
    { y.vacant with
      vecNo := s.nextNo h, live := true, cid := x.cid, band := bi, pc := x.pc, cur := req, next := req, req := req
      retiredAt := s.clock
      crewid := wd (nh * 256 + c * 8 + m)
      bandid := wd (x.stack * 65536 + x.harts.length)
      nodeid := wd (g.stack * 2 ^ 40 + g.queue * 2 ^ 36 + x.prio * 2 ^ 32 + g.seq * 65536 + x.ix) })

/-- At a placement every stack loads the context's whole vector page table (R246). -/
def loadTables (s : State) (cid : Nat) : State := s.modCtx cid (fun c => { c with vpt := vptLoad s c.vptb })

/-- A band of a node starts on its stack: crew i on core i, its harts on the lowest free ones (R41, R52, R54). -/
def placeBand (s : State) (n : Nat) (x : Node) : State :=
  match s.graph? x.graph with
  | none => s
  | some g =>
    let bi := s.fresh
    let cores := (upto 0 x.harts.length).map (fun i => x.stack * 4 + i)
    let crews := x.harts.zipIdx.map (fun p => (freeHarts s (x.stack * 4 + p.2)).take p.1)
    let b : Band := { node := n, stack := x.stack, cid := x.cid, phase := .running, crews := crews, killed := [],
                      markers := [], slots := [], reserved := 0, reclaimAt := none, incoming := none, preemptAt := 0, drained := [] }
    let s1 := cores.foldl (fun s k => enterCore s k x.cid) (loadTables s x.cid)
    let s2 := crews.zipIdx.foldl (fun s p => p.1.zipIdx.foldl (fun s q => placeHart x g bi p.2 q.2 q.1 s) s) s1
    let s3 := { (s2.setBand bi b).setNode n { x with st := .running, band := some bi, waited := x.waitTime s } with fresh := bi + 1 }
    cores.foldl fitCeiling s3

/-- A victim's lane reclaiming has ended: every hart of it has cleared RCL (R55, R66). -/
def reclaimDone (s : State) (b : Band) (bi : Nat) : Bool :=
  b.crews.flatten.all (fun h => !((s.hart h).live && (s.hart h).band == bi && (s.hart h).rcl))

/-- A node that comes by lane reclaiming starts on its stack if it is READY and fits. -/
def placeIncoming (s : State) (n : Nat) : State :=
  match s.node? n with
  | none => s
  | some x => if x.st = NState.ready ∧ bandFits s n x then placeBand s n x else s

/-- The lane reclaiming of a band has ended: its reservation is released, unless a full pre-emption has taken it over (R55,
R66). -/
def Band.reclaimed (b : Band) : Band :=
  { b with reclaimAt := none, reserved := if b.phase = .running then 0 else b.reserved }

/-- The slices that a victim has freed pass to the incoming band, which starts when it has them all (R66): once every hart of
the victim has cleared RCL or the victim has left. While rows of the table that its placement loads are locked it waits and
keeps them (R263). -/
def passSlices (s : State) (bi : Nat) : State :=
  match s.band? bi with
  | none => s
  | some b =>
    match b.incoming with
    | none => s
    | some n =>
      if !reclaimDone s b bi then s
      else
        let s1 := s.modBand bi Band.reclaimed
        let s2 := if vptLocked s (s.node? n |>.elim 0 (·.cid)) then { s1 with arriving := s1.arriving ++ [(n, b.cid)] }
          else placeIncoming s1 n
        s2.modBand bi (fun b => { b with incoming := none })

/-- A node that waits for the tables of its placement starts once none of their rows is locked (R66, R263). -/
def arrive (s : State) (e : Nat × Nat) : State :=
  if vptLocked s (s.node? e.1 |>.elim 0 (·.cid)) then s
  else
    let t := placeIncoming s e.1
    { t with arriving := t.arriving.filter (fun x => x != e) }

/-- A hart ends (R311), and with it what its band still owed of a lane reclaiming (R66). -/
def leaveBand (s : State) (h : Nat) : State := passSlices (endHart s h) (s.hart h).band

/-- The grant step of SETVL (R62, R63, R66, R187): CUR takes NEXT, what lies above it is lost, and RCL clears. -/
def Hart.grantStep (x : Hart) : Hart :=
  { x with cur := x.next, rcl := false
           v := tfilter (fun i => decide (i % 0x6000 < Nat.min x.cur x.next * 512)) x.v
           k := tfilter (fun i => decide (i % 16384 < Nat.min x.cur x.next * 256)) x.k }

/-- SETVL of a hart takes the grant of its NEXT at its position in the vector queue: a power-driven reduction that no
hart of the core leaves pending gives the island its clock back, and freed slices pass on (R62 to R66, R195). -/
def applyGrant (s : State) (h : Nat) : State :=
  let core := coreOf h
  let s1 := s.modHart h Hart.grantStep
  let s2 := if reductionPending s1 core then s1
    else { s1.modCore core (fun c => { c with reduceAt := none }) with
           slow := if (s.core core).reduceAt.isSome then tput false s1.slow core false else s1.slow }
  passSlices s2 (s2.hart h).band

end Sys2Proof.Machine
end

