-- ==== Sys2Proof/Machine/Fork.lean ====
section
/-! DEFINITION. FORK, RDV and NEND (R58, R271, R286 to R291, R311). -/
namespace Sys2Proof.Machine

/-- A start PC names a slot (R287). -/
def startOk (pc : W) : Bool := !bit pc 0 && fld pc 1 5 != 0

/-- A sequencer is free for a FORK of a hart: nobody owns it, or the hart owns it stopped and the FORK resumes or
cancels it (R58, R287). -/
def seqFree (q : Seq) (h : Nat) (again : Bool) : Bool :=
  match q.phase with
  | .free => true
  | .stopped => q.owner == h && again
  | .running => false
  | .rest => false

/-- The hart owns the sequencer and it runs or rests at its rendezvous (R287). -/
def seqBusy (q : Seq) (h : Nat) : Bool :=
  q.owner == h && match q.phase with
    | .free => false
    | .stopped => false
    | .running => true
    | .rest => true

/-- A cancelled timeline: the counter moves to the number of the last operation accepted and the error clears (R287). -/
def Timeline.cancel (t : Timeline) : Timeline := { t with cnt := t.acc, done := [], err := none }

/-- A timeline without its error (R287). -/
def Timeline.clear (t : Timeline) : Timeline := { t with err := none }

/-- A cancel drops the failed numbers of copy nodes on TLC3 (R426). -/
def dropFailed (s : State) (cid core : Nat) : State :=
  let live := liveNumbers s cid core
  s.modTl (tlKey cid core 3) (fun t =>
    match t.err with
    | none => t
    | some _ =>
      let lost := (upto (t.cnt + 1) (t.acc - t.cnt)).filter (fun n => !live.contains n && !t.done.contains n)
      { lost.foldl Timeline.complete t with err := none })

/-- Cancels the copy engine: every failed or queued copy is dropped (R287). -/
def cancelCopies (s : State) (core cid : Nat) : State :=
  let k := s.core core
  let s1 := (cid :: k.copies.map (·.cid)).foldl (fun s c => s.modTl (tlKey c core 0) Timeline.cancel) s
  let s2 := dropFailed s1 cid core
  s2.modCore core (fun k => { k with copies := [], cseq := if k.cseq.phase = .stopped then Seq.reset else k.cseq })

/-- The flags of sequencers go to their owner (R110, R289). -/
def Hart.takeFlags (x : Hart) (qs : List Seq) : Hart :=
  qs.foldl (fun x q => { x with fflags := x.fflags ||| q.fflags, satf := x.satf ||| q.satf }) x

/-- A sequencer whose flags its owner has taken (R110, R289). -/
def Seq.noFlags (q : Seq) : Seq := { q with fflags := 0, satf := 0 }

/-- The stopped sequencers that a FORK cancels give their flags to their owner (R110). -/
def cancelFlags (xm xc : Bool) (h : Nat) (s : State) : State :=
  let k := s.core (coreOf h)
  let qs := ((if xm then [k.mseq] else []) ++ (if xc then [k.cseq] else [])).filter (fun q => decide (q.phase = .stopped))
  s.modHart h (fun x => x.takeFlags qs)

/-- Starts a sequencer with its copies of the owner's registers (R287). -/
def startSeq (x : Hart) (h : Nat) (pc : W) : Seq :=
  { Seq.reset with phase := .running, owner := h, level := x.level, pc := pc, s := x.s, vtype := x.vtype, vl := x.vl,
                   mfc := x.mfc, fxrm := x.fxrm }

/-- A stopped sequencer goes on (R287). -/
def Seq.resume (q : Seq) : Seq := if q.phase = .stopped then { q with phase := .running, fword := 0, fva := 0, fpc := 0 } else q

/-- What a FORK does once its sequencers are free: cancels, then starts and resumes (R287). -/
def forkNow (x : ForkArgs) (h : Nat) (pa pb : W) (s : State) : State :=
  let core := coreOf h
  let y := s.hart h
  let s0 := cancelFlags x.xm x.xc h s
  let s1 := if x.xm then
      (s0.modTl (tlKey y.cid core 1) Timeline.cancel).modCore core (fun k =>
        { k with mseq := if k.mseq.phase = .stopped then Seq.reset else k.mseq })
    else s0
  let s2 := if x.xc then cancelCopies s1 core y.cid else s1
  let s3 := if x.rm then
      (s2.modTl (tlKey y.cid core 1) Timeline.clear).modCore core (fun k => { k with mseq := k.mseq.resume })
    else if x.a.val ≠ 0 then s2.modCore core (fun k => { k with mseq := startSeq y h pa })
    else s2
  if x.rc then
    let s4 := (y.cid :: (s3.core core).copies.map (·.cid)).foldl (fun s c => s.modTl (tlKey c core 0) Timeline.clear) s3
    (resumeCopies s4 core).modCore core (fun k => { k with cseq := k.cseq.resume })
  else if x.b.val ≠ 0 then s3.modCore core (fun k => { k with cseq := startSeq y h pb })
  else s3

/-- FORK (R286, R287): a release, so that it waits for the hart's earlier accesses and vector instructions. -/
def execFork (x : ForkArgs) (s : State) : Out :=
  scalarX (.fork x) (do
    let pa ← rd x.a
    let pb ← rd x.b
    if x.a.val ≠ 0 && !startOk pa then trap cMISALIGN pa
    if x.b.val ≠ 0 && !startOk pb then trap cMISALIGN pb
    let h ← me
    let core ← myCore
    let k := (← get).core core
    let useM := x.xm || x.rm || decide (x.a.val ≠ 0)
    let useC := x.xc || x.rc || decide (x.b.val ≠ 0)
    if (useM && seqBusy k.mseq h) || (useC && seqBusy k.cseq h) then illegal (.fork x)
    if useC then modify (fun s => suspendCopyNode s core)
    if (useM && (!seqFree k.mseq h (x.xm || x.rm) || k.resident != some (← myCid))) ||
        (useC && !seqFree k.cseq h (x.xc || x.rc)) then stall
    needAll
    modify (forkNow x h pa pb)) s

/-- The sequencers that a hart owns. -/
def ownedSeqs (k : Core) (h : Nat) : List Seq :=
  [k.mseq, k.cseq].filter (fun q => q.owner == h && decide (q.phase ≠ .free))

/-- RDV of a hart (R289): it waits for its sequencers and takes their flags; it traps where one has stopped, and else frees
them. -/
def rdvHart : X Unit := do
  let h ← me
  let core ← myCore
  let k := (← get).core core
  let qs := ownedSeqs k h
  if qs.any (fun q => decide (q.phase = .running)) then stall
  onMe (fun x => x.takeFlags qs)
  match qs.find? (fun q => decide (q.phase = .stopped)) with
  | some q =>
    let told (q : Seq) : Seq := if q.owner = h then q.noFlags else q
    modify (fun s => s.modCore core (fun k => { k with mseq := told k.mseq, cseq := told k.cseq }))
    trap cENGINE q.fword
  | none =>
    let keep (q : Seq) : Seq := if q.owner = h then Seq.reset else q
    modify (fun s => s.modCore core (fun k => { k with mseq := keep k.mseq, cseq := keep k.cseq }))

/-- RDV of a sequencer: it rests once every operation it accepted has completed; a faulted copy engine stops the copy
sequencer (R289). -/
def rdvSeq (s : State) : Out :=
  match s.agent with
  | .hart _ => .next s
  | .queue _ => .next s
  | .mseq c => .next (s.modCore c (fun k => { k with mseq := { k.mseq with phase := .rest } }))
  | .cseq c =>
    let k := s.core c
    match k.cfault with
    | some e => .next (engineFaultStop s c e)
    | none =>
      if seqCopies s c then .next s
      else .next (s.modCore c (fun k => { k with cseq := { k.cseq with phase := .rest } }))

/-- RDV (R289). -/
def execRdv (s : State) : Out := if s.agent.isSeq then rdvSeq s else scalarX .rdv rdvHart s

/-- NEND (R311): RDV, then a wait as of DRAINST with pending records delivered, then the hart ends. A hart at machine level,
which takes no delivery (R390), ends without it (log 103). -/
def execNend (s : State) : Out :=
  jumpX .nend (do
    if (← myHart).inHandler then illegal .nend
    rdvHart
    needAll
    modify (fun s => postAll s (agentHart s))
    let x ← myHart
    if x.open_ && !x.pend.isEmpty then stall
    let h ← me
    modify (fun s => leaveBand s h)) s

end Sys2Proof.Machine
end

