-- ==== Sys2Proof/Machine/Copy.lean ====
section
/-! DEFINITION. COPY and COPYX: their acceptance (R292 to R294, R297, R299, R300), and what the copy engine does at each
granule and tile (R295 to R303, R426). -/
namespace Sys2Proof.Machine

/-- The reserved bits of a descriptor are zero (R294). -/
def descOk (d : Nat) : Bool := bitsOf d 448 64 == 0 && bitsOf d 128 32 == 0

/-- Extent of dimension 1, 2 or 3 (R294). -/
def descN (d k : Nat) : Nat := bitsOf d (320 + 32 * k) 32

/-- Source stride of dimension 1, 2 or 3, in bytes modulo 2^64 (R294). -/
def descSS (d k : Nat) : W := sext 32 (bitsOf d (128 + 32 * k) 32)

/-- Destination stride of dimension 1, 2 or 3 (R294). -/
def descDS (d k : Nat) : W := sext 32 (bitsOf d (224 + 32 * k) 32)

/-- Bytes of a strip (R294). -/
def CopyCtx.len (x : CopyCtx) : Nat := x.vl * x.sew / 8

/-- Tiles of a COPYX (R301). -/
def CopyCtx.tiles (x : CopyCtx) : Nat := ceilDiv x.vl 512

/-- The cursor brought to the next row that the extents give (R295). -/
def CopyCtx.norm (x : CopyCtx) : CopyCtx :=
  let a := if x.len ≤ x.boff then { x with i1 := x.i1 + 1, boff := 0 } else x
  let b := if descN x.body 1 ≤ a.i1 then { a with i1 := 0, i2 := a.i2 + 1, boff := 0 } else a
  if descN x.body 2 ≤ b.i2 then { b with i1 := 0, i2 := 0, i3 := b.i3 + 1, boff := 0 } else b

/-- The cursor has passed every granule (R295, R301). -/
def CopyCtx.isOver (x : CopyCtx) : Bool :=
  if x.x then decide (x.tiles ≤ x.gran)
  else x.len == 0 || descN x.body 1 == 0 || descN x.body 2 == 0 || decide (descN x.body 3 ≤ x.norm.i3)

/-- A copy of a node ends, or one of the engine: it leaves (R292, R315). -/
def popCopy (s : State) (core : Nat) (x : CopyCtx) : State :=
  s.modCore core (fun c => match x.node with
    | none => { c with copies := c.copies.tail }
    | some _ => { c with nodeCopy := none })

/-- The engine keeps the cursor of its copy. -/
def keepCopy (s : State) (core : Nat) (x : CopyCtx) : State :=
  s.modCore core (fun c => match x.node with
    | none => { c with copies := x :: c.copies.tail }
    | some _ => { c with nodeCopy := some x })

/-- The window writes that the copies of an engine have made are performed: what the copy signals comes after them (R238,
R260). -/
def copyWrites (s : State) (core : Nat) : State := flushParts (fun w => w.who == 576 + core) s

/-- The band of a copy makes progress (R399). -/
def copyProgress (s : State) (x : CopyCtx) : State :=
  if x.node.isNone ∧ (s.hart x.hart).live ∧ (s.hart x.hart).band = x.band then retire s x.hart else s

/-- A copy has completed under its number: TLC0, or TLC3 with its node (R260, R292, R315, R399). -/
def doneCopy (s : State) (x : CopyCtx) : State :=
  match x.node with
  | none => copyProgress (s.modTl (tlKey x.cid x.core 0) (fun t => t.complete x.opno)) x
  | some n => setNodeState (s.modTl (tlKey x.cid x.core 3) (fun t => t.complete x.opno)) n .done

/-- The copy that an engine runs has moved its last granule: it leaves and completes, its writes performed (R260, R292). -/
def endCopy (s : State) (core : Nat) (x : CopyCtx) : State := doneCopy (popCopy (copyWrites s core) core x) x

/-- A fault at a granule: the engine is faulted (R290, R292, R297), or the node fails (R426). -/
def failCopy (s : State) (core : Nat) (x : CopyCtx) (cause idx : Nat) (va : W) : State :=
  match x.node with
  | none =>
    let e : EngFault := { fword := faultWord cause 1 idx, va := va, pc := x.pc }
    (s.modCore core (fun c => { c with copies := match c.copies with
      | [] => []
      | y :: l => { y with fault := some e } :: l })).modTl (tlKey x.cid x.core 0) (fun t => { t with err := some e })
  | some n =>
    let e : EngFault := { fword := faultWord cause 3 idx, va := va, pc := 0 }
    failNode ((popCopy s core x).modTl (tlKey x.cid x.core 3) (fun t => { t with err := some e })) n e.fword va

/-- Accepts a copy of the agent: it takes the next number of TLC0 (R260, R292); one with nothing to move completes at
once (R295). -/
def acceptCopy (x : CopyCtx) : X Unit := do
  let s ← get
  let core := agentCore s
  let k := tlKey x.cid core 0
  let s1 := s.modTl k Timeline.accept
  let y := { x with opno := (s1.tl k).acc }
  set (if y.isOver then doneCopy s1 y else s1.modCore core (fun c => { c with copies := c.copies ++ [y] }))

/-- A copy waits while the engine is faulted or holds four copies (R292). -/
def copyRoom : X Unit := do
  let core ← myCore
  let k := (← get).core core
  if k.cfault.isSome || decide (4 ≤ k.copies.length) then stall

/-- The check of a barrier register (R293); none names no barrier. -/
def copyBar (b : SReg) : X (Option Nat) := do
  if b.val = 0 then return none
  return some (← tbCheck (← rd b))

/-- A copy of the agent with what its acceptance captures. -/
def newCopy (c : VCtx) (bar : Option Nat) : X CopyCtx := do
  let s ← get
  return { x := false, opno := 0, cid := (s.hart c.h).cid, core := agentCore s, hart := c.h, seq := c.seq,
           band := (s.hart c.h).band, node := none, pc := if c.seq then c.pc else 0, sew := c.sew, vl := c.vl, bar := bar,
           desc := 0, body := 0, i1 := 0, i2 := 0, i3 := 0, boff := 0, gran := 0, haddr := 0, paddr := 0, wm1 := 0,
           dir := false, sx := false, took := s.ticks, fault := none }

/-- What a copy that takes none of its traps does before it is accepted: a hart's suspends a running copy node, waits for
room and for the hart's earlier accesses (R56, R292, R299). -/
def copyEnter : X Unit := do
  let core ← myCore
  if sptHeld (← get) .engine .read then stall
  if !(← get).agent.isSeq then modify (fun s => suspendCopyNode s core)
  copyRoom
  needAll

/-- COPY (R292 to R295, R297, R299); it reads its descriptor after the hart's earlier accesses. -/
def execCopy (b a : SReg) (s : State) : Out :=
  unlessFaulted (fun _ _ => true) s (copyX (.copy b a) (do
    let c ← vctx
    let core ← myCore
    let off ← rd a
    let size := spBytes (← get).sdp
    let there := decide (off.toNat % 64 = 0) && decide (off.toNat + 64 ≤ size)
    if there then needAll
    let body := descAt (← get) core off.toNat
    if there && !descOk body then illegal (.copy b a)
    checkVType c
    if size < off.toNat + 64 then trap cXLATE off
    if off.toNat % 64 ≠ 0 then trap cMISALIGN off
    let bar ← copyBar b
    copyEnter
    let x ← newCopy c bar
    acceptCopy { x with desc := off.toNat, body := body }) s)

/-- COPYX (R300 to R302). -/
def execCopyx (x : CopyXArgs) (s : State) : Out :=
  unlessFaulted (fun _ _ => true) s (copyX (.copyx x) (do
    let c ← vctx
    checkVType c
    if 16 < c.sew ∨ c.sew < x.wm1.toNat + 1 then vill c
    let bar ← copyBar x.b
    copyEnter
    let y ← newCopy c bar
    let h ← rd x.a
    let p ← rd x.c
    acceptCopy { y with x := true, haddr := h, paddr := p, wm1 := x.wm1.toNat, dir := x.dir, sx := x.s }) s)

/-- The requester that a copy of an engine is (R237). -/
def copyRq (core : Nat) (x : CopyCtx) : Rq := { cid := x.cid, stack := coreStack core, lvl := .n, who := 576 + core }

/-- What a copy reads of its source: the bytes, whether any of them is poisoned, and whether a double-bit error leaves some
of them open (R240, R349). -/
structure CopyVal where
  val : Nat
  bad : Bool
  lost : Bool
deriving DecidableEq, Repr

/-- A checked range of a copy's source; a source that cannot be reached is poisoned (R240, R252, R297). -/
def copyRead (r : Rq) (p : Piece) : X CopyVal := do
  let s ← get
  let home := homeStack s p.acc p.p
  let lost : X CopyVal := do
    noteWay r.stack home
    return { val := (Config.unstated s.ticks p.va.toNat).toNat % 2 ^ (8 * p.n), bad := true, lost := false }
  match reach s r.stack home with
  | .held => stall
  | .unreached => lost
  | .unanswered => lost
  | .ok =>
    let v := homeRead s p.acc p.p p.n
    set v.2
    return { val := v.1.1, bad := v.1.2, lost := v.1.2 && (partsOf (homeAddr p.acc p.p) p.n).any v.2.isLost }

/-- The checked ranges of a copy's source as one number, poisoned where one of them is. -/
def copyReadAll (r : Rq) : List Piece → X CopyVal
  | [] => pure { val := 0, bad := false, lost := false }
  | e :: l => do
    let x ← copyRead r e
    let y ← copyReadAll r l
    return { val := x.val + 2 ^ (8 * e.n) * y.val, bad := x.bad || y.bad, lost := x.lost || y.lost }

/-- The ranges of `n` bytes from an address, cut at 16-byte parts; the first argument bounds their number. -/
def partsFrom : Nat → W → Nat → List (W × Nat)
  | 0, _, _ => []
  | k + 1, va, n =>
    let m := 16 - va.toNat % 16
    if n = 0 then [] else if n ≤ m then [(va, n)] else (va, m) :: partsFrom k (va + wd m) (n - m)

/-- A place whose bytes hold no poison (R237). -/
def Place.clean : Place → Bool
  | .vreg _ _ => true
  | .tile _ _ => true
  | .hole => false
  | .dram _ _ => false
  | .spad _ _ => false
  | .latA _ _ => false
  | .latB _ _ => false
  | .creg _ _ => false
  | .col _ _ => false
  | .route _ _ => false
  | .ext _ => false

/-- The checks of a copy's source that come before any of its lines is touched (R297). -/
def copySource (r : Rq) (l : List (W × Nat)) : X (List Piece) := checkWants r .copy .read (wants .any 1 l)

/-- The checked source of a copy waits, and begins to wait for the gaps that it needs. -/
def copyWait (r : Rq) (ps : List Piece) : X Unit := do
  if piecesHeld (← get) r .copy .read ps then
    askPieces r ps
    stall

/-- The checks of a copy's destination (R237, R297, R302). -/
def copyDest (r : Rq) (l : List (W × Nat)) : X (List Piece) := do
  precheck r .copy .write true l
  accessAll r .copy .write .any 1 l

/-- A checked range of a destination with the bytes it takes, and the parts of them that are poisoned, as virtual addresses,
each with whether its data bits are open. -/
structure DestW where
  pc : Piece
  data : Nat
  bad : List (W × Bool)
deriving DecidableEq, Repr

/-- Why a destination range takes nothing: poison bound for registers, a home out of reach, or a refusal (R297). -/
def destWhy (s : State) (r : Rq) (w : DestW) : Option Nat :=
  if w.pc.p.clean && !w.bad.isEmpty then some cPOISON
  else match reach s r.stack (homeFor s w.pc.acc w.pc.p true) with
    | .held => none
    | .unreached => some cREMOTE
    | .unanswered => some cREMOTE
    | .ok => (homeWrite s w.pc.acc w.pc.p w.pc.n w.data r.who (covOf (homeAddr w.pc.acc w.pc.p) w.pc.n)).2.head?.map (·.2)

/-- Writes a destination range and the poison that comes with it, which leaves a line of DRAM uncompressed; a codeword that
takes bytes of an open one is open whole (R240, R250, R269, R349). -/
def destPut (r : Rq) (s : State) (w : DestW) : State :=
  let a := homeAddr w.pc.acc w.pc.p
  let s1 := (homeWrite s w.pc.acc w.pc.p w.pc.n w.data r.who (covOf a w.pc.n)).1
  let spoil (s : State) (e : W × Bool) : State :=
    let p := (a + (e.1 - w.pc.va).toNat) / 16
    reopen (s.spoil p (e.2 || s.isLost p)) p
  let s2 := w.bad.foldl spoil s1
  if w.bad.isEmpty || !isDram w.pc.acc w.pc.p then s2
  else (linesOf a w.pc.n).foldl (stampLine w.pc.acc.key w.pc.acc.cmp { lines := [], parts := [] }) s2

/-- A granule or tile is written whole or not at all (R296, R297). -/
def destAll (r : Rq) (ws : List DestW) : X Unit := do
  let s ← get
  let home (w : DestW) : Nat := homeFor s w.pc.acc w.pc.p true
  if ws.any (fun w => reach s r.stack (home w) = .held) then stall
  eachOf (fun w => noteWay r.stack (home w)) (ws.filter (fun w => reach s r.stack (home w) ≠ .ok))
  match ws.find? (fun w => (destWhy s r w).isSome) with
  | some w => trap ((destWhy s r w).getD cPERM) w.pc.va
  | none => modify (fun s => ws.foldl (destPut r) s)

/-- Aligned 32-byte sectors of a range (R298). -/
def sectorsOf (va : W) (n : Nat) : Nat := (va.toNat + n - 1) / 32 + 1 - va.toNat / 32

/-- The next granule of a COPY: source, destination and bytes (R295). -/
def granOf (x : CopyCtx) : W × W × Nat :=
  let d := x.body
  let at_ (base : W) (st : Nat → W) : W := base + wd x.i1 * st 1 + wd x.i2 * st 2 + wd x.i3 * st 3 + wd x.boff
  let dst := at_ (wd (bitsOf d 64 64)) (descDS d)
  (at_ (wd (bitsOf d 0 64)) (descSS d), dst, Nat.min (x.len - x.boff) (64 - dst.toNat % 64))

/-- Moves one granule (R295 to R297); the sectors it writes, and the bytes. No line of either side is allocated where one
finds no room (R365). -/
def moveGranule (core : Nat) (x : CopyCtx) : X (Nat × Nat) := do
  let r := copyRq core x
  let g := granOf x
  let n := g.2.2
  let chunks := partsFrom 8 g.2.1 n
  let from_ (e : W × Nat) : List (W × Nat) := piecesOf (g.1 + (e.1 - g.2.1)) e.2
  let src ← copySource r (chunks.flatMap from_)
  let dst := piecesOf g.2.1 n
  precheck r .copy .write true dst
  let ps ← checkWants r .copy .write (wants .any 1 dst)
  copyWait r (src ++ ps)
  servePieces r (src ++ ps)
  let rec parts : List (List Piece × (W × Nat)) → X (Nat × List (W × Bool))
    | [] => pure (0, [])
    | (q, e) :: l => do
      let v ← copyReadAll r q
      let rest ← parts l
      return (v.val + 2 ^ (8 * e.2) * rest.1, if v.bad then (e.1, v.lost) :: rest.2 else rest.2)
  let v ← parts (chunks.map (fun e =>
    (src.filter (fun p => decide ((p.va - (g.1 + (e.1 - g.2.1))).toNat < e.2)), e)))
  destAll r (ps.map (fun p => { pc := p, data := v.1, bad := v.2 }))
  return (sectorsOf g.2.1 n, n)

/-- A row of a COPYX as a checked bank-linear address (R301, R302): `w` says that it is written. An unbacked page that leaves
the bank-linear window takes R302's permission fault, too. -/
def planeRow (core : Nat) (r : Rq) (w : Bool) (va : W) : X Nat := do
  let s ← get
  if 1008 ≤ linRow va.toNat then trap cXLATE va
  match (resolve s r .copy (if w then .write else .read) va 64).1 with
  | .error (.fault _) => trap cPERM va
  | .error e => throw e
  | .ok (acc, p) =>
    match p with
    | .dram lin false =>
      if acc.cmp || acc.lt != 0 || acc.ub || acc.key != 0 || decide (linStack lin ≠ coreStack core) then trap cPERM va
      return lin
    | _ => trap cPERM va

/-- The rows of a COPYX tile: row `b` lies 1,024 bytes after row `b` − 1, in the same subarray (R301, R302). -/
def planeRows (core : Nat) (r : Rq) (x : CopyCtx) : X (List Nat) := do
  let base := x.paddr + wd (64 * x.gran)
  let rec go : List Nat → X (List Nat)
    | [] => pure []
    | b :: l => do
      if 1008 ≤ linRow base.toNat + b then trap cXLATE (base + wd (1024 * b))
      let a ← planeRow core r (!x.dir) (base + wd (1024 * b))
      let rest ← go l
      return a :: rest
  go (upto 0 (x.wm1 + 1))

/-- The checks of a COPYX that concern the whole of it (R301, R302). -/
def planeCheck (x : CopyCtx) : X Unit := do
  let byte := x.paddr.toNat % 1024
  if byte % 64 ≠ 0 ∨ 8192 < 8 * byte + 512 * x.tiles then trap cMISALIGN x.paddr
  if x.haddr.toNat % (x.sew / 8) ≠ 0 then trap cMISALIGN x.haddr

/-- The elements of a tile's horizontal side with their poison, a part at a time (R302). -/
def laneLoad (r : Rq) (eb : Nat) : List Piece → X (List CopyVal)
  | [] => pure []
  | e :: l => do
    let v ← copyRead r e
    let rest ← laneLoad r eb l
    return (upto 0 (e.n / eb)).map (fun i => { v with val := v.val / 2 ^ (8 * eb * i) % 2 ^ (8 * eb) }) ++ rest

/-- Bit `b` of each lane of a tile, lane 0 lowest; a lane that is not there gives 0. -/
def planeBits (b : Nat) : List CopyVal → Nat
  | [] => 0
  | e :: l => e.val / 2 ^ b % 2 + 2 * planeBits b l

/-- Writes 64 bytes of a row with poison by 128-column part, and with the parts whose bits are open (R301, R302, R326,
R349). -/
def putPlane (r : Rq) (bad lost : List Bool) (s : State) (a x : Nat) : State :=
  let s1 := dramWrite s 0 false a 64 x 0 r.who (covOf a 64)
  (upto 0 4).foldl (fun s p => if bad.getD p false then reopen (s.spoil (a / 16 + p) (lost.getD p false)) (a / 16 + p) else s) s1

/-- The rows of a tile, which lie in one bank, wait while they are locked, or for a gap of a computing bank (R263, R337). -/
def planeWait (x : CopyCtx) (rows : List Nat) : X Unit := do
  let s ← get
  match rows.head? with
  | none => pure ()
  | some a =>
    if rows.any (rowLocked s x.cid) then stall
    if gapShut s (576 + x.core) a then
      set (askGap (576 + x.core) s a)
      stall
    set (useGap (576 + x.core) s a)

/-- A tile from the horizontal array to the planes (R301, R302). -/
def tileH2p (core : Nat) (x : CopyCtx) (hv : W) (nk : Nat) : X Nat := do
  let r := copyRq core x
  let eb := x.sew / 8
  let src ← copySource r (partsFrom 66 hv (nk * eb))
  let rows ← planeRows core r x
  copyWait r src
  planeWait x rows
  servePieces r src
  let es ← laneLoad r eb src
  let t ← get
  match rows.findIdx? (fun a => keyRefuses t 0 a 64 (covOf a 64)) with
  | some b => trap cKEY (x.paddr + wd (64 * x.gran) + wd (1024 * b))
  | none => pure ()
  let parts (f : CopyVal → Bool) : List Bool := (upto 0 4).map (fun p => ((es.drop (128 * p)).take 128).any f)
  let t1 := rows.zipIdx.foldl (fun s e => putPlane r (parts (·.bad)) (parts (·.lost)) s e.1 (planeBits e.2 es)) t
  match rows.head? with
  | none => set t1
  | some a => set (putPlane r [] [] t1 (a - linRow a * 1024 + 1018 * 1024) (2 ^ nk - 1))
  return 2 * rows.length

/-- Lane `k` of the planes, extended to SEW (R301). -/
def laneValue (x : CopyCtx) (rows : List Nat) (k : Nat) : Nat :=
  let w := x.wm1 + 1
  let v := rows.zipIdx.foldl (fun n e => n + e.1 / 2 ^ k % 2 * 2 ^ e.2) 0
  lowBits x.sew (if x.sx then sInt w v else v)

/-- The 64 bytes of each row with the poison of its four parts, and whether their bits are open. -/
def planeLoad (a : Nat) (s : State) : (Nat × List CopyVal) × State :=
  (upto 0 4).foldl (fun acc p =>
    let v := dramRead acc.2 0 (a + 16 * p) 16 0
    let e : CopyVal := { val := v.1.1, bad := v.1.2, lost := v.1.2 && v.2.isLost (a / 16 + p) }
    ((acc.1.1 + e.val * 2 ^ (128 * p), acc.1.2 ++ [e]), v.2)) ((0, []), s)

/-- The rows of a tile in order. -/
def planeLoads : List Nat → X (List (Nat × List CopyVal))
  | [] => pure []
  | a :: l => do
    let v := planeLoad a (← get)
    set v.2
    let rest ← planeLoads l
    return v.1 :: rest

/-- A number from values of `w` bits, lowest first. -/
def packNat (w : Nat) : List Nat → Nat
  | [] => 0
  | x :: l => x + 2 ^ w * packNat w l

/-- A tile from the planes to the horizontal array (R301, R302). The tile is what its engine writes at once, so that it
writes a 128-byte line whole where it covers the line by itself (R248, log 101). -/
def tileP2h (core : Nat) (x : CopyCtx) (hv : W) (nk : Nat) : X Nat := do
  let r := copyRq core x
  let eb := x.sew / 8
  let n := nk * eb
  let rows ← planeRows core r x
  let ps ← copyDest r (piecesOf hv n)
  planeWait x rows
  let ls ← planeLoads rows
  let lane (k : Nat) : Nat := laneValue x (ls.map (·.1)) k
  let hit (f : CopyVal → Bool) (e : W × Nat) : Bool :=
    (upto ((e.1 - hv).toNat / eb) (e.2 / eb)).any (fun k => ls.any (fun l => (l.2[k / 128]?).any f))
  let parts := partsFrom 66 hv n
  let bad := (parts.filter (hit (·.bad))).map (fun e => (e.1, hit (·.lost) e))
  let piece (p : Piece) : DestW :=
    let lo := (p.va - hv).toNat
    { pc := p, data := packNat x.sew ((upto (lo / eb) (p.n / eb)).map lane)
      bad := bad.filter (fun e => decide ((e.1 - p.va).toNat < p.n)) }
  destAll r (ps.map piece)
  return sectorsOf hv n

/-- Moves one tile (R301, R302); the sectors it counts. -/
def moveTile (core : Nat) (x : CopyCtx) : X Nat := do
  planeCheck x
  let k0 := 512 * x.gran
  let nk := Nat.min 512 (x.vl - k0)
  let hv := x.haddr + wd (k0 * (x.sew / 8))
  if x.dir then tileP2h core x hv nk else tileH2p core x hv nk

/-- The sector updates of a granule: none where one would leave the field, which sets OVF and ERR (R261, R298). -/
def countSectors (core off : Nat) : Nat → State → State × Bool
  | 0, s => (s, true)
  | n + 1, s =>
    let b := tbGet (tbRead s core off)
    if b.psec ≤ -(2 ^ 31 : Nat) then (tbWrite s core off { b with ovf := true, err := true }, false)
    else countSectors core off n (tbWrite s core off { b with psec := b.psec - 1 }.check)

/-- What follows a granule: the cursor passes it, its sectors count, and the copy completes, goes on, or stops at a
barrier overflow (R295, R298). -/
def passGranule (s : State) (core : Nat) (x : CopyCtx) (sectors : Nat) : State :=
  let s0 := copyProgress s x
  let r := match x.bar with
    | none => (s0, true)
    | some off => countSectors core off sectors (copyWrites s0 core)
  if !r.2 then failCopy (keepCopy r.1 core x) core x cBARRIER x.gran 0
  else if x.isOver then endCopy r.1 core x
  else keepCopy r.1 core x

/-- The copy that an engine runs: the oldest accepted, else that of its copy node (R292, R315). -/
def Core.copyHead (k : Core) : Option CopyCtx :=
  match k.copies with
  | x :: _ => some x
  | [] => k.nodeCopy

/-- The engine moves: the stack runs, the engine is not faulted, and the band of the copy is not stopped (R67, R292,
R402). -/
def copyMoves (s : State) (core : Nat) (x : CopyCtx) : Bool :=
  coreRuns s core && (s.core core).cfault.isNone && (x.node.isSome ||
    match s.band? x.band with
    | none => true
    | some b =>
      match b.phase with
      | .running => true
      | .ended => true
      | .stopping => b.markers.contains (seqMarker core false)
      | .pending => false
      | .saving => false
      | .suspended => false
      | .restoring => false)

/-- One step of a copy: a granule or a tile, and what follows it; a stop that faults leaves the granule unwritten. -/
def copyStep (s : State) (core : Nat) (x : CopyCtx) : Out :=
  let y := if x.x then x else x.norm
  let body : X Unit := do
    if x.x then
      let n ← moveTile core x
      modify (fun s => passGranule s core { x with gran := x.gran + 1 } n)
    else
      let n ← moveGranule core y
      modify (fun s => passGranule s core { y with gran := y.gran + 1, boff := y.boff + n.2 } n.1)
  match body.run s with
  | .ok _ t => .next t
  | .error (.trap code va _) t => .next (failCopy t core x code x.gran va)
  | .error .stall t => .next (keepAsks s t)
  | .error (.cut _) _ => .next s
  | .error (.fatal code va) t => .next (removeContext t x.cid code va)
  | .error (.fault f) _ => .fault f

/-- COPY_GRANULE and COPYX_TILE: the engine of a core moves the next granule of its copy of that kind; a copy whose
descriptor a resume found malformed stops (R294, R295). -/
def copyEvent (tile : Bool) (core : Nat) (s : State) : Out :=
  match (s.core core).copyHead with
  | none => .next s
  | some x =>
    if x.x ≠ tile ∨ !copyMoves s core x then .next s
    else if !x.x && !descOk x.body then .next (failCopy s core x cILL x.gran 0)
    else if x.isOver then .next (endCopy s core x)
    else copyStep s core x

/-- COPY_GRANULE (R295 to R298, R426). -/
def execEvCopyGranule (core : Nat) (s : State) : Out := copyEvent false core s
/-- COPYX_TILE (R301, R302). -/
def execEvCopyxTile (core : Nat) (s : State) : Out := copyEvent true core s

end Sys2Proof.Machine
end

