-- ==== Sys2Proof/Machine/CtrlReg.lean ====
section
/-! DEFINITION. The control-register instructions (R90, R171 to R173). -/
namespace Sys2Proof.Machine

/-- The checks of R171: an unassigned index, a level below the Read column, and for a write the Write column. -/
def crDenied (lvl : Level) (idx : Nat) (write : Bool) : Bool :=
  match crReadLevel idx with
  | none => true
  | some r =>
    !lvl.atLeast r || (write && match crWriteLevel idx with
      | none => true
      | some w => !lvl.atLeast w)

/-- FFLAGS and SATF wait for the vector queue (R110, R172). -/
def crWaits (idx : Nat) : Bool := idx == 0x005 || idx == 0x006

/-- A control-register instruction: D receives the old value; `f` gives the new one from the old (R171). -/
def crX (i : Instr) (d : SReg) (idx : BitVec 10) (f : Option (W → X W)) (s : State) : Out :=
  scalarX i (do
    let x ← myHart
    if crDenied x.level idx.toNat f.isSome then illegal i
    if crWaits idx.toNat then needQueue
    let s ← get
    let old := crRead s (agentHart s) idx.toNat
    match f with
    | none => pure ()
    | some g =>
      let new ← g old
      modify (fun s => crWrite s (agentHart s) idx.toNat new)
    wr d old) s

/-- CRRD (R171, R172). -/
def execCrrd (d : SReg) (idx : BitVec 10) (s : State) : Out := crX (.crrd d idx) d idx none s
/-- CRWR (R171, R173). -/
def execCrwr (d : SReg) (idx : BitVec 10) (a : SReg) (s : State) : Out :=
  crX (.crwr d idx a) d idx (some (fun _ => rd a)) s
/-- CRSET (R171, R173). -/
def execCrset (d : SReg) (idx : BitVec 10) (a : SReg) (s : State) : Out :=
  crX (.crset d idx a) d idx (some (fun o => do return o ||| (← rd a))) s
/-- CRCLR (R171, R173). -/
def execCrclr (d : SReg) (idx : BitVec 10) (a : SReg) (s : State) : Out :=
  crX (.crclr d idx a) d idx (some (fun o => do return o &&& ~~~(← rd a))) s

end Sys2Proof.Machine
end

