-- ==== Sys2Proof/Machine/EvRegs.lean ====
section
/-! DEFINITION. Writes that reach registers from outside a program: the control-register window and BAR0 (R173, R237,
R409, R410), queue tails and states (R49, R411), ports and windows (R253, R408, R419, R425), the route tables (R37),
the power clamp (R423, R424) and the debugger's arming of a hart (R384). -/
namespace Sys2Proof.Machine

/-- The state of a queue once what it holds is known (R49). -/
def settleQueue (s : State) (st q : Nat) : State :=
  let k := (s.stack st).queue q
  let live := liveGraphs s st q
  let next := match k.st with
    | .idle => if k.tail = k.head then .idle else .active
    | .active => if k.tail = k.head ∧ live = 0 then .idle else .active
    | .drain => if live = 0 then .disabled else .drain
    | .disabled => .disabled
  s.modStack st (fun t => t.modQueue q (fun k => { k with st := next }))

/-- A tail write (R411): refused where the ring would overflow or the queue takes no records; else the records it covers
carry its time: a record's is that of the first write that covered it, while it stays covered (R48, log 35). -/
def tailWrite (s : State) (st q tail : Nat) : State :=
  let k := (s.stack st).queue q
  let pending (t : Nat) : Nat := (t + 65536 - k.head) % 65536
  if 2 ^ k.logn < pending tail ∨ k.st = .drain ∨ k.st = .disabled then
    s.modStack st (fun t => t.modQueue q (fun k => { k with terr := true }))
  else
    let old := k.tails.filter (fun e => decide (pending e.1 < pending tail))
    let last := (k.tails.find? (fun e => decide (pending tail ≤ pending e.1))).map (·.2)
    let tails := if pending tail = 0 then [] else old ++ [(tail, last.getD s.time)]
    settleQueue (s.modStack st (fun t => t.modQueue q (fun k => { k with tail := tail, tails := tails }))) st q

/-- Writing QCTL.EN (R49, R410). -/
def enWrite (s : State) (st q : Nat) (en : Bool) : State :=
  let next (k : HQueue) : QState :=
    if en then (if k.st = .disabled then .idle else k.st)
    else if k.st = .idle ∨ k.st = .active then .drain
    else k.st
  settleQueue (s.modStack st (fun t => t.modQueue q (fun k => { k with en := en, st := next k }))) st q

/-- QBASE, CID, LOGN and PRIO ignore writes in ACTIVE and DRAIN (R410). -/
def HQueue.locked (k : HQueue) : Bool := decide (k.st = .active) || decide (k.st = .drain)

/-- Writing QCTL: the fields under the state before it, then EN (R410). -/
def qctlWrite (s : State) (st q : Nat) (v : W) : State :=
  let f (k : HQueue) : HQueue :=
    let k1 := { k with terr := k.terr && !bit v 7 }
    if k.locked then k1
    else { k1 with cid := fld v 32 16, prio := fld v 4 2, logn := if 9 ≤ fld v 12 4 then k.logn else fld v 12 4 }
  enWrite (s.modStack st (fun t => t.modQueue q f)) st q (bit v 0)

/-- A write to a register of queue `q` (R409, R410). -/
def queueWrite (s : State) (st q off : Nat) (v : W) : State :=
  match off with
  | 0x00 => s.modStack st (fun t => t.modQueue q (fun k => if k.locked then k else { k with qbase := copyFld k.qbase v 12 36 }))
  | 0x08 => qctlWrite s st q v
  | 0x18 => tailWrite s st q (fld v 0 16)
  | 0x20 => s.modStack st (fun t => t.modQueue q (fun k => { k with qerr := if bit v 63 then setFld k.qerr 63 1 0 else k.qerr }))
  | _ => s

/-- The phases of R253 end for a port. -/
def Port.reopen (p : Port) : Port := { p with down := false, dropping := [], enPending := false }

/-- A range is re-enabled (R253): no access to it uses a translation cached before its link-down event, and the vector page
tables are loaded anew (R246, R425, log 39). -/
def reopenPort (s : State) (p : Nat) : State :=
  let t := s.modPort p Port.reopen
  { t with ctxs := tmap (fun _ c => if c.installed || !c.vpt.isEmpty then { c with vpt := vptLoad t c.vptb } else c) s.ctxs }

/-- Writing PCTL.EN (R419, R425): ignored while the link is not up; a 1 during the first phase waits for its end. -/
def pctlWrite (s : State) (p : Nat) (en : Bool) : State :=
  let x := s.port p
  if !x.up then s
  else
    let s1 := s.modPort p (fun x => { x with en := en })
    if !(en && x.down) then s1
    else if x.dropping.isEmpty then reopenPort s1 p
    else s1.modPort p (fun x => { x with enPending := true })

/-- Writing PCLAMP (R423, R424): the host's value is at most 1,800; the firmware cannot write above it. -/
def clampWrite (s : State) (host : Bool) (v : Nat) : State :=
  if host then { s with clampHost := Nat.min v 1800 }
  else if s.clampHost < v then s
  else { s with clampFw := v }

/-- The package limit in force in W: the firmware's value takes effect only below the host's (R424). -/
def powerLimit (s : State) : Nat := Nat.min s.clampHost s.clampFw

/-- The port of a BAR0 offset, where it is a PCTL. -/
def pctlPort (off : Nat) : Option Nat :=
  if 0x20000 ≤ off ∧ off < 0x20200 ∧ off % 0x40 = 0 then some ((off - 0x20000) / 0x40) else none

/-- The code of a queue's state in QCTL.STATE (R410). -/
def QState.code : QState → Nat
  | .idle => 0
  | .active => 1
  | .drain => 2
  | .disabled => 3

/-- QCTL as a read returns it (R410). -/
def HQueue.qctl (k : HQueue) : W :=
  wd (k.cid % 65536 * 2 ^ 32 + k.logn % 16 * 4096 + k.st.code * 256 + b01 k.terr * 128 + k.prio % 4 * 16 + b01 k.en)

/-- A register of a queue as a read returns it (R409, R410). -/
def HQueue.read (k : HQueue) (off : Nat) : W :=
  match off with
  | 0x00 => k.qbase
  | 0x08 => k.qctl
  | 0x10 => wd (k.head % 65536)
  | 0x18 => wd (k.tail % 65536)
  | 0x20 => k.qerr
  | _ => 0

/-- PCTL as a read returns it (R419). -/
def Port.pctl (x : Port) : W :=
  wd (x.rate % 256 * 65536 + x.width % 256 * 256 + b01 x.down * 4 + b01 x.up * 2 + b01 x.en)

/-- BAR0 as a read of 8 bytes at an offset returns it: zero at an offset that the table does not list, and in FAILED at
every one but MBSTAT, which alone answers (R409, R417, R420, R424). PCLAMP reads as the host wrote it, also where the firmware
holds a lower value (log 91). -/
def bar0Read (s : State) (off : Nat) : W :=
  if s.life = .failed ∧ off ≠ 0x10028 then 0
  else if off < 0x4000 then ((s.stack (off / 0x400)).queue (off / 0x40 % 16)).read (off % 0x40)
  else match off with
    | 0x10000 => tget 0 s.mbarg 0
    | 0x10008 => tget 0 s.mbarg 1
    | 0x10010 => tget 0 s.mbarg 2
    | 0x10018 => tget 0 s.mbarg 3
    | 0x10020 => s.mbcmd
    | 0x10028 => s.mbstat
    | 0x30000 => wd s.clampHost
    | 0x30008 => s.eol
    | _ => match pctlPort off with
      | some p => (s.port p).pctl
      | none => 0

/-- What the management core, on stack 0, does at a stack: its packet goes over channel 3 and the answer comes back on it; where
a link holds it the write has not happened, and one that does not arrive changes nothing (R32, R36, R37, log 94). -/
def mgmtAt (s : State) (st : Nat) (f : State → State) : Out :=
  match reachOn s 3 3 0 st with
  | .ok => .next (f s)
  | .held => .next s
  | .unreached => .next (logOn s 3 3 0 st)
  | .unanswered => .next (f (logOn s 3 3 0 st))

/-- XSCHED_WRITE (R355): a write to any copy, that of stack 0 too, sets all 16 at once; in force on all stacks from the next
round. -/
def execEvXschedWrite (v : BitVec 64) (s : State) : Out :=
  if s.life = .ready then .next { s with xsched := xschedWrite s.xsched v } else .next s

/-- COLALLOC_WRITE (R372): in force from the next frame. -/
def execEvColallocWrite (st : Nat) (v : BitVec 64) (s : State) : Out :=
  if s.life = .ready ∧ st < 16 then
    mgmtAt s st (fun s => s.modStack st (fun t => { t with colallocNew := some (colallocWrite (t.colallocNew.getD t.colalloc) v) }))
  else .next s

/-- ROUTE_TABLE_WRITE (R34, R37): packets in flight keep their own turn list. -/
def execEvRouteTableWrite (st ent : Nat) (v : BitVec 32) (s : State) : Out :=
  if s.life = .ready ∧ st < 16 ∧ ent < 16 then mgmtAt s st (fun s => routeWrite s st ent v.toNat) else .next s

/-- SFRQH_WRITE (R401): by a hart of the context of hart `h`, on its core. -/
def execEvSfrqhWrite (h : Nat) (v : BitVec 64) (s : State) : Out :=
  if s.life = .ready ∧ h < 512 ∧ (s.hart h).live then .next (sfrqhWrite s (coreOf h) (s.hart h).cid v) else .next s

/-- QTAIL_WRITE (R411). -/
def execEvQtailWrite (st q : Nat) (tail : BitVec 16) (s : State) : Out :=
  if s.life = .failed ∨ 16 ≤ st ∨ 16 ≤ q then .next s else .next (tailWrite s st q tail.toNat)

/-- QUEUE_DISABLE (R49). -/
def execEvQueueDisable (st q : Nat) (s : State) : Out :=
  if s.life = .failed ∨ 16 ≤ st ∨ 16 ≤ q then .next s else .next (enWrite s st q false)

/-- QUEUE_ENABLE (R49). -/
def execEvQueueEnable (st q : Nat) (s : State) : Out :=
  if s.life = .failed ∨ 16 ≤ st ∨ 16 ≤ q then .next s else .next (enWrite s st q true)

/-- PCTL_EN_WRITE (R419, R425). -/
def execEvPctlEnWrite (p : Nat) (en : Bool) (s : State) : Out :=
  if s.life = .failed ∨ 8 ≤ p then .next s else .next (pctlWrite s p en)

/-- PCLAMP_WRITE (R423, R424); firmware runs in READY alone. -/
def execEvPclampWrite (host : Bool) (v : BitVec 12) (s : State) : Out :=
  if s.life = .failed ∨ (!host ∧ s.life ≠ .ready) then .next s else .next (clampWrite s host v.toNat)

/-- OUTBOUND_WINDOW_WRITE (R408): through configuration space, which answers in every state (R420). -/
def execEvOutboundWindowWrite (p ix : Nat) (x : WinArgs) (s : State) : Out :=
  if 8 ≤ p ∨ 16 ≤ ix then .next s
  else
    let w : Win := { valid := true, base := x.base.toNat, limit := x.limit.toNat, r := x.r, w := x.w, kind := x.kind }
    .next (s.modPort p (fun y => { y with wins := tput Win.reset y.wins ix w }))

/-- DEBUGGER_ARM (R384). -/
def execEvDebuggerArm (h : Nat) (on : Bool) (s : State) : Out :=
  if s.life = .ready ∧ h < 512 then
    .next (s.modHart h (fun x => { x with hstat := setFld x.hstat 4 1 (b01 on) }))
  else .next s

end Sys2Proof.Machine
end

