-- ==== Sys2Proof/Machine/SaveArea.lean ====
section
/-! DEFINITION. The context save area of a stack as bytes (R18, R69, R395, R396): where a slot and a trap frame lie, what
their doublewords hold, and the management firmware's aperture to it (R417). What the rules give no layout for inside a
header, a queue image or a saved control-register block is kept as plain data alone, and its bytes are memory of the area
(log 24). -/
namespace Sys2Proof.Machine

/-- Offset of slot `n` of the save area (R395). -/
def slotOff (n : Nat) : Nat := n * 0x113000

/-- Offset of the trap frame of a hart in the save area of its stack (R395). -/
def frameOff (h : Nat) : Nat := 0xFF0000 + h % 32 * 0x800

/-- The bank-linear address of a byte of the save area where the SRAM die is absent: the rows of 17 subarrays in ascending
order (R18). -/
def saveLin (st off : Nat) : Nat := linAddr st 15 63 (47 + off / 1024 / 1008) (off / 1024 % 1008) (off % 1024)

/-- The byte of the save area at a bank-linear address, where the SRAM die is absent and the address names one (R18). -/
def saveOff (lin : Nat) : Option Nat :=
  let off := ((linSub lin - 47) * 1008 + linRow lin) * 1024 + linByte lin
  if linLayer lin = 15 ∧ linBank lin = 63 ∧ 47 ≤ linSub lin ∧ linRow lin < 1008 ∧ off < 2 ^ 24 then some off else none

/-- The canonical address of a byte of the save area: its row without the SRAM die, else an address of its own (R18, R69). -/
def saveAt (sdp : Bool) (st off : Nat) : Nat := if sdp then 2 ^ 66 + st * 2 ^ 24 + off else saveLin st off

/-- A doubleword of a hart's trap frame (R395). -/
def frameWord (x : Hart) (off : Nat) : Option W :=
  match off with
  | 0x00 => some x.mframe.hstat
  | 0x08 => some x.mframe.tcause
  | 0x10 => some x.mframe.tval
  | 0x18 => some x.mframe.tepc
  | 0x20 => some x.mframe.tstat
  | 0x28 => some x.mframe.tidx
  | 0x30 => some (wd (b01 x.mframe.valid))
  | 0x40 => some x.resumePc
  | 0x7F8 => some x.mentry
  | _ => none

/-- A hart with a doubleword of its trap frame written (R395, R417); the reserved bits of a register stay zero when the
frame is reloaded (R6, R389). -/
def Hart.putFrame (x : Hart) (off : Nat) (v : W) : Hart :=
  match off with
  | 0x00 => { x with mframe := { x.mframe with hstat := v } }
  | 0x08 => { x with mframe := { x.mframe with tcause := v } }
  | 0x10 => { x with mframe := { x.mframe with tval := v } }
  | 0x18 => { x with mframe := { x.mframe with tepc := v } }
  | 0x20 => { x with mframe := { x.mframe with tstat := v } }
  | 0x28 => { x with mframe := { x.mframe with tidx := v } }
  | 0x30 => { x with mframe := { x.mframe with valid := v != 0 } }
  | 0x40 => { x with resumePc := v }
  | 0x7F8 => { x with mentry := v }
  | _ => x

/-- Two neighbouring 32-bit elements of a table as a doubleword. -/
def pairWord (t : Tab (BitVec 32)) (i : Nat) : W := wd ((tget 0 t (2 * i)).toNat + 2 ^ 32 * (tget 0 t (2 * i + 1)).toNat)

/-- The hart, grant slice and offset that stand at an offset of the register part of a slot, `unit` bytes for each slice:
harts in ascending HARTID, each with its CUR slices (R396). -/
def slotSlice (unit : Nat) : List Hart → Nat → Option (Hart × Nat × Nat)
  | [], _ => none
  | x :: l, off => if off < x.cur * unit then some (x, off / unit, off % unit) else slotSlice unit l (off - x.cur * unit)

/-- A vector register byte of a slot: each slice as v0 to v31 at 512 B (R396). -/
def slotVecByte (k : Slot) (off : Nat) : Nat :=
  match slotSlice 0x4000 (k.harts.map (·.2)) off with
  | none => 0
  | some (x, j, b) => (x.vbyte (b / 512) (j * 512 + b % 512)).toNat

/-- A mask register byte of a slot: each slice as k1 to k15 at 32 B (R187, R396). -/
def slotMaskByte (k : Slot) (off : Nat) : Nat :=
  match slotSlice 480 (k.harts.map (·.2)) off with
  | none => 0
  | some (x, j, b) =>
    (upto 0 8).foldl (fun n i => n + b01 (tget false x.k ((b / 32 + 1) * 16384 + j * 256 + b % 32 * 8 + i)) * 2 ^ i) 0

/-- The pending store-fault records of a slot, 32 bytes each (R396, R400). -/
def slotRecByte (k : Slot) (off : Nat) : Nat := (k.recs[off / 32]?).elim 0 (fun r => r.word / 2 ^ (8 * (off % 32)) % 256)

/-- A doubleword of bytes. -/
def bytesWord (f : Nat → Nat) (off : Nat) : W := wd ((upto 0 8).foldr (fun i x => f (off + i) + 256 * x) 0)

/-- A doubleword of a slot, at the offsets whose contents R396 lays out. -/
def savedWord (k : Slot) (off : Nat) : Option W :=
  if 0x800 ≤ off ∧ off < 0x1800 then
    (k.harts.find? (fun e => e.1 % 8 == (off - 0x800) / 512)).map (fun e => tget 0 e.2.s ((off - 0x800) % 512 / 8))
  else if 0x3800 ≤ off ∧ off < 0x4000 then some (bytesWord (slotRecByte k) (off - 0x3800))
  else if 0x4000 ≤ off ∧ off < 0x7000 then some (pairWord k.latA ((off - 0x4000) / 8))
  else if 0x7000 ≤ off ∧ off < 0xD000 then some (pairWord k.latB ((off - 0x7000) / 8))
  else if 0xD000 ≤ off ∧ off < 0x4D000 then some (pairWord k.tiles ((off - 0xD000) / 8))
  else if 0x4D000 ≤ off ∧ off < 0x10D000 then some (bytesWord (slotVecByte k) (off - 0x4D000))
  else if 0x10D000 ≤ off ∧ off < 0x112A00 then some (bytesWord (slotMaskByte k) (off - 0x10D000))
  else none

/-- Two neighbouring elements of a table take the halves of a doubleword. -/
def putPair (t : Tab (BitVec 32)) (i : Nat) (v : W) : Tab (BitVec 32) :=
  tput 0 (tput 0 t (2 * i) (BitVec.ofNat 32 v.toNat)) (2 * i + 1) (BitVec.ofNat 32 (v.toNat / 2 ^ 32))

/-- Changes the hart and grant slice that stand at an offset of the register part of a slot (R396). -/
def editSlice (unit : Nat) (f : Hart → Nat → Nat → Hart) : List (Nat × Hart) → Nat → List (Nat × Hart)
  | [], _ => []
  | e :: l, off =>
    if off < e.2.cur * unit then (e.1, f e.2 (off / unit) (off % unit)) :: l
    else e :: editSlice unit f l (off - e.2.cur * unit)

/-- Changes a slot byte by byte with the bytes of a doubleword at an offset. -/
def editBytes (f : Slot → Nat → Nat → Slot) (k : Slot) (off : Nat) (v : W) : Slot :=
  (upto 0 8).foldl (fun k i => f k (off + i) (v.toNat / 2 ^ (8 * i) % 256)) k

/-- A slot with a vector register byte written. -/
def Slot.putVec (k : Slot) (off b : Nat) : Slot :=
  { k with harts := editSlice 0x4000 (fun x j o => x.setVbyte (o / 512) (j * 512 + o % 512) (BitVec.ofNat 8 b)) k.harts off }

/-- A slot with eight mask bits written. -/
def Slot.putMask (k : Slot) (off b : Nat) : Slot :=
  let put (x : Hart) (j o : Nat) : Hart :=
    (upto 0 8).foldl (fun x i => x.setKbit (o / 32 + 1) (j * 256 + o % 32 * 8 + i) (b.testBit i)) x
  { k with harts := editSlice 480 put k.harts off }

/-- The record that 32 bytes of a slot describe, beside one that says whether its hart has ended (R400, R405). -/
def SfRec.ofWord (r : SfRec) (x : Nat) : SfRec :=
  { r with va := x / 2 ^ 192 % 2 ^ 64, pa := x / 2 ^ 144 % 2 ^ 48, cid := x / 2 ^ 128 % 2 ^ 16, elem := x / 2 ^ 96 % 2 ^ 32
           cause := x / 256 % 256, dlv := x.testBit 7, crew := x / 32 % 4, hart := x % 8 }

/-- A slot with a byte of a pending record written. -/
def Slot.putRec (k : Slot) (off b : Nat) : Slot :=
  let put (r : SfRec) : SfRec :=
    r.ofWord (r.word - r.word / 2 ^ (8 * (off % 32)) % 256 * 2 ^ (8 * (off % 32)) + b * 2 ^ (8 * (off % 32)))
  { k with recs := k.recs.zipIdx.map (fun e => if e.2 = off / 32 then put e.1 else e.1) }

/-- A slot with a doubleword written, at the offsets whose contents R396 lays out. -/
def Slot.putWord (k : Slot) (off : Nat) (v : W) : Slot :=
  if 0x800 ≤ off ∧ off < 0x1800 then
    { k with harts := k.harts.map (fun e => if e.1 % 8 = (off - 0x800) / 512 then
        (e.1, { e.2 with s := wrS e.2.s ((off - 0x800) % 512 / 8) v }) else e) }
  else if 0x3800 ≤ off ∧ off < 0x4000 then editBytes Slot.putRec k (off - 0x3800) v
  else if 0x4000 ≤ off ∧ off < 0x7000 then { k with latA := putPair k.latA ((off - 0x4000) / 8) v }
  else if 0x7000 ≤ off ∧ off < 0xD000 then { k with latB := putPair k.latB ((off - 0x7000) / 8) v }
  else if 0xD000 ≤ off ∧ off < 0x4D000 then { k with tiles := putPair k.tiles ((off - 0xD000) / 8) v }
  else if 0x4D000 ≤ off ∧ off < 0x10D000 then editBytes Slot.putVec k (off - 0x4D000) v
  else if 0x10D000 ≤ off ∧ off < 0x112A00 then editBytes Slot.putMask k (off - 0x10D000) v
  else k

/-- An aligned doubleword of a stack's save area where R395 and R396 lay it out. A slot that no band holds any more keeps
what it held. -/
def laidWord (s : State) (st off : Nat) : Option W :=
  if off < slotOff 14 then
    ((s.stack st).slots.find? (fun e => e.1 == off / 0x113000)).bind (fun e => savedWord e.2 (off % 0x113000))
  else if 0xFF0000 ≤ off ∧ off < 0x1000000 then frameWord (s.hart (32 * st + (off - 0xFF0000) / 0x800)) (off % 0x800)
  else none

/-- An aligned doubleword of a stack's save area, as the firmware's aperture and the rows of R18 show it. -/
def saveWord (s : State) (st off : Nat) : W := (laidWord s st off).getD (wd (s.natAt (saveAt s.sdp st off) 8))

/-- The management firmware writes an aligned doubleword of a save area through its aperture: of a slot or frame where R395 and
R396 lay it out, else of the rows (R18, R395, R417). -/
def apertureWrite (s : State) (st off : Nat) (v : W) : State :=
  if off % 8 ≠ 0 ∨ 0x1000000 ≤ off ∨ 16 ≤ st then s
  else
    if (laidWord s st off).isNone then s.putNat (saveAt s.sdp st off) 8 v.toNat
    else if off < slotOff 14 then
      s.modStack st (fun t => { t with slots := tmap (fun n k =>
        if n = off / 0x113000 then k.putWord (off % 0x113000) v else k) t.slots })
    else s.modHart (32 * st + (off - 0xFF0000) / 0x800) (fun x => x.putFrame (off % 0x800) v)

/-- The 64 bytes that a host finds in the rows of R18: what the save area holds there. -/
def withheldNat (s : State) (lin : Nat) : Nat :=
  leNat ((upto lin 64).map (fun a => match saveOff a with
    | none => s.byteAt a
    | some off => BitVec.ofNat 8 ((saveWord s (linStack a) (off / 8 * 8)).toNat / 2 ^ (8 * (off % 8)))))

end Sys2Proof.Machine
end

