-- ==== Sys2Proof/Machine/EvFabric.lean ====
section
/-! DEFINITION. The mesh (R33 to R37, R418), requests and responses on the fabric (R252, R268), refusals that reach
their core (R400), deliveries (R392, R393), and the CXL ports (R251, R253, R406, R407). -/
namespace Sys2Proof.Machine

/-- A request on the fabric. -/
def State.req? (s : State) (r : Nat) : Option FReq := (s.reqs.find? (fun e => e.1 == r)).map (·.2)
/-- Writes a request. -/
def State.setReq (s : State) (r : Nat) (q : FReq) : State := { s with reqs := tins (tdel s.reqs r) r q }
/-- Adds a message towards the host or the management core. -/
def State.say (s : State) (m : OutMsg) : State := { s with out := s.out ++ [m] }

/-- The router that finds a routing error drops the packet and logs it; the request is answered as unreachable (R36). -/
def routingError (s : State) (r : Nat) (q : FReq) : State :=
  (s.setReq r { q with phase := .unreachable }).say (.routingError q.router)

/-- An earlier packet of the same source, destination, channel and route value is still under way (R37). -/
def behind (s : State) (q : FReq) : Bool :=
  s.reqs.any (fun e => e.2.moving && decide (e.2.vc = q.vc) && e.2.ends == q.ends && e.2.entry == q.entry &&
    decide (e.2.stamp < q.stamp))

/-- One router takes a head flit: it delivers at HOPS = 0, in the order of R37, or forwards by the low turn (R35, R36). A
packet that ends at a stack other than its destination is not delivered to it, and counts as lost (log 38). -/
def hop (s : State) (r : Nat) (q : FReq) : State :=
  let d := q.turns % 4
  if 13 ≤ q.hops then routingError s r q
  else if q.hops = 0 then
    if q.router ≠ q.ends.2 then s.setReq r { q with lost := true }
    else if behind s q then s
    else s.setReq r { q with here := true }
  else if q.came = some d then routingError s r q
  else match neighbour q.router d with
    | none => routingError s r q
    | some n =>
      if tget false s.linksDown (4 * q.router + d) then s.setReq r { q with lost := true }
      else if linkShut s (4 * q.router + d) q.vc then s
      else s.setReq r { q with router := n, hops := q.hops - 1, turns := q.turns / 4, came := some (backDir d) }

/-- MESH_PACKET_ARRIVE (R35, R36). -/
def execEvMeshPacketArrive (p : Nat) (s : State) : Out :=
  match s.req? p with
  | none => .next s
  | some q => if q.moving then .next (hop s p q) else .next s

/-- BACKPRESSURE_SIGNAL (R33): the receiver at the end of link `l`, given as 4 × stack + direction, signals OFF where 32 of
its 128 flits are free, and ON where 64 are again; what other traffic than the requests fills is as the signal says. -/
def execEvBackpressureSignal (l vc : Nat) (on : Bool) (s : State) : Out :=
  if 64 ≤ l ∨ 4 ≤ vc ∨ (neighbour (l / 4) (l % 4)).isNone then .next s
  else
    let k := l * 4 + vc
    let other := tget 0 s.linkFlits k
    let own := bufferFlits s l vc - other
    if on then
      if 64 < own then .next s
      else .next { s with linkOff := tput false s.linkOff k false, linkFlits := tput 0 s.linkFlits k (Nat.min other (64 - own)) }
    else .next { s with linkOff := tput false s.linkOff k true, linkFlits := tput 0 s.linkFlits k (Nat.max other (96 - own)) }

/-- A range of host or peer memory does what the first phase of R253 gives: its link is down, or had gone down after the
request was made (R425). -/
def FReq.down (s : State) (q : FReq) : Bool :=
  match placeOf s.sdp q.acc.pa with
  | .ext a => q.cut || decide (linkPhase s a ≠ 0)
  | _ => false

/-- The home performs a request, or refuses what the key, the lattice order or a peer refuses (R155, R163, R248, R353). -/
def perform (s : State) (q : FReq) : HomeResp × State :=
  let p := placeOf s.sdp q.acc.pa
  let r (v : Nat) (bad deny : Bool) (l : List (Nat × Nat)) : HomeResp := { val := v, poison := bad, deny := deny, refused := l }
  match q.op with
  | .read =>
    if q.down s then (r 0 true false [], s)
    else
      let v := homeRead s q.acc p q.n
      (r v.1.1 v.1.2 false [], v.2)
  | .write x =>
    if q.down s then (r 0 false false [(0, cREMOTE)], s)
    else
      let v := homeWrite s q.acc p q.n x q.src (covOf (homeAddr q.acc p) q.n)
      (r 0 false false v.2, v.1)
  | .amo f b => if q.down s then (r 0 false true [], s) else homeAmo s q.acc p q.n (.amo f b) q.src
  | .cas e w => if q.down s then (r 0 false true [], s) else homeAmo s q.acc p q.n (.cas e w) q.src

/-- The key under which a home keeps a response: a number of a source and the source (R268). -/
def FReq.tag (q : FReq) : Nat := q.seq * 1024 + q.src

/-- The home answers: the response goes back under the route entry of the home's router (R35, R268). -/
def answer (s : State) (r : Nat) (q : FReq) (v : HomeResp) : State :=
  { s.setReq r (FReq.inject s q.home (stackOf q.src) { q with phase := .back, resp := v }) with fresh := s.fresh + 1 }

/-- FABRIC_REQUEST_RECEIVE (R252, R268): the home applies each number of a source once; a duplicate is dropped and
answered with the response kept. An access to a locked row waits, and one to a computing bank for its gap (R337). -/
def execEvFabricRequestReceive (r : Nat) (s : State) : Out :=
  match s.req? r with
  | none => .next s
  | some q =>
    let p := placeOf s.sdp q.acc.pa
    if q.phase ≠ .out ∨ !q.here then .next s
    else match (s.served.find? (fun e => e.1 == q.tag)).map (·.2) with
      | some v => .next (answer s r q v)
      | none =>
        if homeHeld s (1024 + r) q.acc p q.n then .next (askGaps s (1024 + r) q.acc p q.n)
        else
          let v := perform (takeGaps s (1024 + r) q.acc p q.n) q
          .next (answer { v.2 with served := tins v.2.served q.tag v.1 } r q v.1)

/-- The answer of a request that cannot be reached (R36, R163). -/
def unreachedResp (s : State) (q : FReq) : HomeResp :=
  match q.op with
  | .read => { val := (Config.unstated s.ticks q.acc.va).toNat % 2 ^ (8 * q.n), poison := true, deny := false, refused := [] }
  | .write _ => { val := 0, poison := false, deny := false, refused := [(0, cREMOTE)] }
  | .amo _ _ => { val := 0, poison := false, deny := true, refused := [] }
  | .cas _ _ => { val := 0, poison := false, deny := true, refused := [] }

/-- A store has no answer to wait for. -/
def HomeOp.isWrite : HomeOp → Bool
  | .read => false
  | .write _ => true
  | .amo _ _ => false
  | .cas _ _ => false

/-- The source takes the answer of a request: a store's refusals go to the core; a load or an atomic is completed by its
instruction, or dropped where the hart no longer waits. -/
def takeResponse (s1 : State) (r : Nat) (q : FReq) (v : HomeResp) : State :=
  let dead (t : State) : State :=
    { t with refusals := t.refusals.map (fun e => if s1.fresh ≤ e.1 then (e.1, { e.2 with live := false }) else e) }
  if q.op.isWrite then
    let t := postRefusals q.src q.acc 0 v.refused { s1 with reqs := tdel s1.reqs r }
    if q.live then t else dead t
  else if (s1.hart q.src).await = some r then s1.setReq r { q with phase := .done, resp := v }
  else { s1 with reqs := tdel s1.reqs r }

/-- FABRIC_RESPONSE_RECEIVE (R268): the source acknowledges a response, and its home frees what it kept; of a request given
up as unreachable nothing has been received, and its home keeps what it has. -/
def execEvFabricResponseReceive (r : Nat) (s : State) : Out :=
  match s.req? r with
  | none => .next s
  | some q =>
    match q.phase with
    | .out => .next s
    | .back => if q.here then .next (takeResponse { s with served := tdel s.served q.tag } r q q.resp) else .next s
    | .unreachable => .next (takeResponse s r q (unreachedResp s q))
    | .done => .next s

/-- REQUEST_RESEND (R418): a request unanswered for 8 µs is sent again with its number through the current route entry,
up to 4 times; after that it is answered as unreachable. -/
def execEvRequestResend (r : Nat) (s : State) : Out :=
  match s.req? r with
  | none => .next s
  | some q =>
    if (q.phase ≠ .out ∧ q.phase ≠ .back) ∨ s.clock < q.sentAt + 8000 then .next s
    else if 4 ≤ q.tries then .next (s.setReq r { q with phase := .unreachable })
    else .next { s.setReq r (FReq.inject s (stackOf q.src) q.home
      { q with phase := .out, tries := q.tries + 1, sentAt := s.clock }) with fresh := s.fresh + 1 }

/-- Packets queued for a link are dropped (R418). -/
def dropQueued (l : Nat) (q : FReq) : FReq :=
  if q.moving && decide (q.hops ≠ 0) && decide (4 * q.router + q.turns % 4 = l) then { q with lost := true } else q

/-- MESH_LINK_DOWN (R418): the link of stack l / 4 in direction l % 4 is taken down, both ways. -/
def execEvMeshLinkDown (l : Nat) (s : State) : Out :=
  match neighbour (l / 4) (l % 4) with
  | none => .next s
  | some n =>
    if 64 ≤ l then .next s
    else
      let m := 4 * n + backDir (l % 4)
      .next ({ s with linksDown := tput false (tput false s.linksDown l true) m true
                      reqs := s.reqs.map (fun (e : Nat × FReq) => (e.1, dropQueued m (dropQueued l e.2))) }.say (.linkDown l))

/-- An earlier refusal of the same instruction from the same home has not reached the core: a home's refusals of an
instruction arrive in ascending element order (R214, R400). -/
def refusedBefore (s : State) (r : Nat) (x : Refused) : Bool :=
  s.refusals.any (fun e => decide (e.1 < r) && e.2.hart == x.hart && e.2.home == x.home && e.2.group == x.group)

/-- STORE_FAULT_POST (R400, R405). -/
def execEvStoreFaultPost (r : Nat) (s : State) : Out :=
  match (s.refusals.find? (fun e => e.1 == r)).map (·.2) with
  | none => .next s
  | some x => if refusedBefore s r x then .next s else .next (postRecord { s with refusals := tdel s.refusals r } x)

/-- The hart stands at an instruction boundary at which a delivery may act (R394, log 29). -/
def atBoundary (s : State) (h : Nat) : Bool :=
  let x := s.hart h
  hartRuns s h && x.vq.isEmpty && x.await.isNone && !x.owed && x.lockTraps.isEmpty && !x.inWfi

/-- IMPRECISE_DELIVERY (R392). -/
def execEvImpreciseDelivery (h : Nat) (s : State) : Out :=
  let x := s.hart h
  if atBoundary s h && x.open_ && !x.pend.isEmpty then .next (deliverImprecise s h none) else .next s

/-- INTERRUPT (R393): after an imprecise delivery that is due (R394). -/
def execEvInterrupt (h : Nat) (s : State) : Out :=
  let x := s.hart h
  if atBoundary s h && x.pend.isEmpty && x.interrupted then .next (deliverInterrupt s h) else .next s

/-- Requests to a range of a port that are not performed yet meet its link down, whatever happens later (R425). -/
def cutReqs (p : Nat) (s : State) : State :=
  let hit (q : FReq) : Bool := match placeOf s.sdp q.acc.pa with
    | .ext a => servingPort s a == some p
    | _ => false
  { s with reqs := s.reqs.map (fun e => if hit e.2 then (e.1, { e.2 with cut := true }) else e) }

/-- CXL_LINK_DOWN (R253): the first phase begins on all 16 stacks for the range that the port serves now; an EN that waits is
not lost (R425). -/
def execEvCxlLinkDown (p : Nat) (s : State) : Out :=
  if 8 ≤ p then .next s
  else .next ((cutReqs p s).modPort p (fun x => { x with
    up := false, down := true, dropping := upto 0 16
    downWins := (if x.dropping.isEmpty then [] else x.downWins) ++ x.windows }))

/-- A cached translation reaches the range of a port's link-down event. -/
def TlbE.ofPort (x : Port) (e : TlbE) : Bool :=
  x.downWins.any (fun w => w.valid && decide (w.base * 4096 < e.pbase + e.size) && decide (e.pbase < (w.limit + 1) * 4096))

/-- An EN of 1 that waited takes effect once no stack is in the first phase and the link is trained (R425, log 39). -/
def settleEn (s : State) (p : Nat) : State :=
  let x := s.port p
  if x.dropping.isEmpty && x.enPending && x.up then reopenPort s p else s

/-- LINK_DOWN_PHASE_END (R32, R253, R425): the event has reached a stack over VC 2, and its acknowledgement the port: the
stack has dropped its cached translations to the range; routers report a routing error on that way (R36). The loaded vector
page tables give none while the phases last, and are loaded anew when they end. -/
def execEvLinkDownPhaseEnd (p st : Nat) (s : State) : Out :=
  let x := s.port p
  if 8 ≤ p ∨ !x.down ∨ !x.dropping.contains st then .next s
  else if reachOn s 2 2 (portStack p) st ≠ .ok then .next (logOn s 2 2 (portStack p) st)
  else
    let left := x.dropping.filter (fun t => t != st)
    let s1 := { s with ctxs := tmap (fun _ c => { c with tlb := c.tlb.filter (fun e => !(e.stack == st && e.ofPort x)) }) s.ctxs }
    .next (settleEn (s1.modPort p (fun y => { y with dropping := left })) p)

/-- CXL_LINK_TRAINED (R406): x16, x8 or x4 at 64, 32 or 16 GT/s; an EN that waited for the end of the first phase acts
(log 39). -/
def execEvCxlLinkTrained (p rate width : Nat) (s : State) : Out :=
  if p < 8 ∧ !(s.port p).up ∧ [64, 32, 16].contains rate ∧ [16, 8, 4].contains width then
    .next (settleEn (s.modPort p (fun x => { x with up := true, rate := rate, width := width })) p)
  else .next s

/-- The DRAM byte that a host offset names: both windows are exposed, and special rows are holes (R231, R406). -/
def hostLin (s : State) (a : Nat) : Option (Nat × Nat) :=
  match placeOf s.sdp a with
  | .dram lin i => some (lin, b01 i)
  | _ => none

/-- A host read of 64 bytes under key id 0 (R248, R406); the withheld subarrays and a hole answer with poison, the former
with what the save area holds (R18). -/
def hostRead (s : State) (a : Nat) : State :=
  match hostLin s a with
  | none => s.say (.memData a (BitVec.ofNat 512 (Config.unstated s.ticks a).toNat) true)
  | some (lin, w) =>
    let v := dramRead s 0 lin 64 w
    if withheld s.sdp lin then s.say (.memData a (BitVec.ofNat 512 (withheldNat s lin)) true)
    else v.2.say (.memData a (BitVec.ofNat 512 v.1.1) v.1.2)

/-- A host write of 64 bytes (R18, R248, R406): dropped where the home turns it away or keeps the bytes withheld. -/
def hostWrite (s : State) (a : Nat) (d : BitVec 512) : State :=
  let t := match hostLin s a with
    | none => s
    | some (lin, w) =>
      let cov := covOf lin 64
      if withheld s.sdp lin ∨ keyRefuses s 0 lin 64 cov then s else dramWrite s 0 false lin 64 d.toNat w 640 cov
  t.say (.memAck a)

/-- The host offset of a CXL.mem request lies in the exposed range, in 64-byte grain (R406). -/
def hostOk (a : Nat) : Bool := decide (a < chipBase) && decide (a % 64 = 0)

/-- The rows of a host access are locked, or it waits for the gap of a computing bank (R337). -/
def hostWaits (s : State) (a : Nat) : Bool :=
  match hostLin s a with
  | none => false
  | some (lin, _) =>
    let v := (s.stack (linStack lin)).veld
    v.run.any (fun r => rowIn r.op.subs r.op.rows lin) || v.locks.any (fun e => e.2.subs.contains (lin / 2 ^ 20)) ||
      gapShut s 640 lin

/-- A host access uses the gap that has served it (R337). -/
def hostGap (s : State) (a : Nat) : State :=
  match hostLin s a with
  | none => s
  | some (lin, _) => useGap 640 s lin

/-- A host access that waits begins to wait for a gap of a computing bank (R337). -/
def hostAsk (s : State) (a : Nat) : State :=
  match hostLin s a with
  | none => s
  | some (lin, _) => if gapShut s 640 lin then askGap 640 s lin else s

/-- CXL_MEM_READ (R406); held during the wipe (R422). -/
def execEvCxlMemRead (addr : Nat) (s : State) : Out :=
  if !hostOk addr then .next s
  else match s.life with
    | .ready => if hostWaits s addr then .next (hostAsk s addr) else .next (hostRead (hostGap s addr) addr)
    | .wipe => .next { s with held := s.held ++ [{ addr := addr, data := none }] }
    | .boot => .next s
    | .failed => .next s

/-- CXL_MEM_WRITE (R406); held during the wipe (R422). -/
def execEvCxlMemWrite (addr : Nat) (data : BitVec 512) (s : State) : Out :=
  if !hostOk addr then .next s
  else match s.life with
    | .ready => if hostWaits s addr then .next (hostAsk s addr) else .next (hostWrite (hostGap s addr) addr data)
    | .wipe => .next { s with held := s.held ++ [{ addr := addr, data := some data }] }
    | .boot => .next s
    | .failed => .next s

/-- CXL_CACHE_SNOOP (R27, R251): the host, the owner of its memory, takes back 64 bytes of a line that slices hold, and the
slices lose the line; it may store its own bytes there. -/
def execEvCxlCacheSnoop (addr : Nat) (data : Option (BitVec 512)) (s : State) : Out :=
  if s.life ≠ .ready ∨ addr % 64 ≠ 0 ∨ addr < extBase ∨ physEnd ≤ addr ∨ !extHost s addr then .next s
  else
    let l := addr / 128
    let t := if s.hostLines.any (fun e => e.1 / 16 == l) then
        { s.say (.snoopData addr (BitVec.ofNat 512 (s.natAt addr 64))) with
          hostLines := tfilter (fun k => k / 16 != l) s.hostLines }
      else s
    .next (match data with
      | none => t
      | some d => plainWrite t addr 64 d.toNat (covOf addr 64))

/-- UNSUPPORTED_REQUEST (R407): the answer alone; none in FAILED (R420). -/
def execEvUnsupportedRequest (p : Nat) (s : State) : Out :=
  if p < 8 ∧ s.life ≠ .failed then .next (s.say (.unsupported p)) else .next s

end Sys2Proof.Machine
end

