-- ==== Sys2Proof/Machine/EvPreempt.lean ====
section
/-! DEFINITION. Pre-emption: its choice and start (R55, R66, R67), the drain deadline (R67), quiesce markers (R397),
saving and restoring a band (R69, R396, R404), and the reclaim deadline (R66). -/
namespace Sys2Proof.Machine

/-- The live harts of a band. -/
def bandLive (s : State) (bi : Nat) (b : Band) : List Nat :=
  b.crews.flatten.filter (fun h => (s.hart h).live && (s.hart h).band == bi)

/-- The package cores of a band, crew i on core i (R41). -/
def Band.cores (b : Band) : List Nat := (upto 0 b.crews.length).map (fun i => b.stack * 4 + i)

/-- Save slots of a stack that bands hold or have reserved (R55, R69). -/
def slotsTaken (s : State) (st : Nat) : Nat :=
  sumOf (s.bands.map (fun e => if e.2.stack = st then e.2.slots.length + e.2.reserved else 0))

/-- Free save slots of a stack: 14 less those taken (R55, R69). -/
def freeSlots (s : State) (st : Nat) : Nat := 14 - slotsTaken s st

/-- Markers of a full pre-emption: one for each live hart, for each forked matrix sequencer of the band, and for each
core's copy sequencer with its engine (R67, R397). -/
def markersOf (s : State) (bi : Nat) (b : Band) : List Nat :=
  let hs := bandLive s bi b
  let forked (c : Nat) : Bool := decide ((s.core c).mseq.phase ≠ .free) && hs.contains (s.core c).mseq.owner
  hs.map markerOf ++ (b.cores.filter forked).map (fun c => seqMarker c true) ++ b.cores.map (fun c => seqMarker c false)

/-- A pre-emption request ends WFI (R177). -/
def endWfi (s : State) (h : Nat) : State :=
  s.modHart h (fun x => if x.inWfi then { x with pc := nextPC x.pc x.nh, wait := none } else x)

/-- A context is under removal: it waits for a halt to end, or its harts run their exit routine (R71, R403). -/
def beingRemoved (s : State) (cid : Nat) : Bool := !(s.ctx cid).installed || (s.ctx cid).removing.isSome

/-- Full pre-emption of a running band begins: issue stops, markers go out, and its slots are reserved (R55, R67). A request
during the removal of its context is dropped (R70). -/
def startPreempt (s : State) (bi : Nat) : State :=
  match s.band? bi with
  | none => s
  | some b =>
    if b.phase ≠ .running ∨ beingRemoved s b.cid then s
    else
      let s1 := (bandLive s bi b).foldl endWfi s
      s1.setBand bi { b with phase := .stopping, markers := markersOf s bi b, drained := [], preemptAt := s.clock
                             reserved := b.crews.length, reclaimAt := none }

/-- The running band of a stack that R55 picks as victim of node `x`: the greatest effective priority number above that
of `x`, ties to the youngest stamp; a band whose node has not reached SUSPENDED counts as running (R50). -/
def victimOf (s : State) (x : Node) : Option (Nat × Band) :=
  let worse (a b : Node) : Bool := nodeBefore s b a
  let cand := s.bands.filterMap (fun e =>
    match s.node? e.2.node with
    | none => none
    | some n => if e.2.stack = x.stack ∧ n.st = .running ∧ e.2.phase ≠ .ended ∧ effPrio s x < effPrio s n then
        some (e.1, e.2, n) else none)
  (cand.foldl (fun (best : Option (Nat × Band × Node)) e => match best with
    | none => some e
    | some b => if worse e.2.2 b.2.2 then some e else some b) none).map (fun e => (e.1, e.2.1))

/-- The slices that a core lacks for node `x` (R55). -/
def shortfall (s : State) (n : Nat) (x : Node) (i : Nat) : Nat :=
  sumOf (x.reqs.getD i []) - freeSlices s (x.stack * 4 + i) n

/-- The victim's harts on core `i` of its stack. -/
def victimHarts (s : State) (bi : Nat) (b : Band) (i : Nat) : List Nat :=
  (bandLive s bi b).filter (fun h => coreOf h = b.stack * 4 + i)

/-- What the repeated step can free on a core without lowering any NEXT below 4 (R55). -/
def canFree (s : State) (hs : List Nat) : Nat := sumOf (hs.map (fun h => (s.hart h).next - 4))

/-- Lane reclaiming serves node `x`: it is no suspended band, harts are free, and slices of the victim cover each core's
whole shortfall (R55). A core that holds a context other than those of the two bands, or that lacks no slices and yet holds
another context, has no mere shortfall of slices. -/
def reclaimServes (s : State) (n : Nat) (x : Node) (bi : Nat) (b : Band) : Bool :=
  x.band.isNone && (upto 0 x.harts.length).any (fun i => decide (0 < shortfall s n x i)) && x.harts.zipIdx.all (fun p =>
    let core := x.stack * 4 + p.2
    let k := s.core core
    let alien := match k.resident with
      | none => false
      | some r => r != x.cid && k.incoming != some x.cid &&
          (r != b.cid || k.incoming.isSome || decide (shortfall s n x p.2 = 0))
    decide (p.1 ≤ (freeHarts s core).length) && !alien &&
      decide (ceilDiv (shortfall s n x p.2) 4 * 4 ≤ canFree s (victimHarts s bi b p.2)))

/-- Lane reclaiming starts: NEXT of the victim's harts falls with RCL set, and slots are reserved (R55, R66). -/
def startReclaim (s : State) (n : Nat) (x : Node) (bi : Nat) (b : Band) : State :=
  let s1 := (upto 0 x.harts.length).foldl (fun t i =>
    lowerSteps (victimHarts s bi b i) true (ceilDiv (shortfall s n x i) 4) t) s
  s1.setBand bi { b with reclaimAt := some s.clock, incoming := some n, reserved := b.crews.length }

/-- The cores of a suspended band meet the conditions of R69, and their copy engines have places for its copies (R292, log
96). -/
def resumeFits (s : State) (b : Band) : Bool :=
  b.slots.zipIdx.all (fun p =>
    let core := b.stack * 4 + p.2
    match ((s.stack b.stack).slots.find? (fun e => e.1 == p.1)).map (·.2) with
    | none => false
    | some k =>
      decide (k.harts.length ≤ (freeHarts s core).length) &&
        decide (sumOf (k.harts.map (fun e => e.2.cur)) ≤ freeSlices s core b.node) &&
        (k.mseq.phase = .free || (s.core core).mseq.phase = .free) &&
        (k.cseq.phase = .free || ((s.core core).cseq.phase = .free && (s.core core).nodeCopy.isNone)) &&
        decide (k.copies.length + (s.core core).copies.length + b01 (s.core core).nodeCopy.isSome ≤ 4) &&
        (liveHarts s core).isEmpty)

/-- The part as it would stand once a band had left (R55). -/
def withoutBand (s : State) (bi : Nat) (b : Band) : State :=
  let hs := bandLive s bi b
  let keep (q : Seq) : Seq := if hs.contains q.owner then Seq.reset else q
  let s1 := hs.foldl (fun s h => s.modHart h Hart.vacant) s
  let s2 := b.cores.foldl (fun s c => s.modCore c (fun k => { k with
    mseq := keep k.mseq, cseq := keep k.cseq, copies := k.copies.filter (fun x => x.band != bi) })) s1
  b.cores.foldl settleCore (s2.setBand bi { b with phase := .suspended })

/-- A band node fits: a fresh one under R52, a suspended one under R69. -/
def nodeFits (s : State) (n : Nat) (x : Node) : Bool :=
  match x.band with
  | none => bandFits s n x
  | some bi => match s.band? bi with
    | none => false
    | some b => b.phase = .suspended && resumeFits s b

/-- The part as it would stand once the bands of a stack that stop or are being saved had left. -/
def afterStops (s : State) (st : Nat) : State :=
  (s.bands.filter (fun e => e.2.stack == st && decide (e.2.phase = .stopping ∨ e.2.phase = .saving))).foldl
    (fun t e => withoutBand t e.1 e.2) s

/-- Pre-emption for a band node that does not fit (R55). A node that will fit once the bands that already leave have left
waits for them; a request to a band that stops joins the one under way (R70); a victim that gives slices to a band is
left to do so until each of its harts has cleared RCL (log 78). A request for a band under removal is dropped (R70). -/
def considerPreempt (s : State) (n : Nat) (x : Node) : State :=
  let after := afterStops s x.stack
  if nodeFits after n x then s
  else match victimOf s x with
  | none => s
  | some (bi, b) =>
    if b.phase ≠ .running ∨ beingRemoved s b.cid ∨ b.reclaimAt.isSome ∨ freeSlots s x.stack < b.crews.length ∨
        (s.stack x.stack).halted then s
    else match x.band with
      | none => if reclaimServes s n x bi b then startReclaim s n x bi b else startPreempt s bi
      | some m =>
        match s.band? m with
        | none => s
        | some own => if resumeFits (withoutBand after bi b) own then startPreempt s bi else s

/-- LANE_RECLAIM_DEADLINE (R66): 2 µs after the first RCL, a victim hart with RCL = 1 brings full pre-emption, which has
its slots reserved. -/
def execEvLaneReclaimDeadline (bd : Nat) (s : State) : Out :=
  match s.band? bd with
  | none => .next s
  | some b =>
    match b.reclaimAt with
    | none => .next s
    | some t =>
      if b.phase ≠ .running ∨ s.clock < t + 2000 ∨ reclaimDone s b bd ∨ (s.stack b.stack).halted then .next s
      else .next (startPreempt s bd)

/-- DRAIN_DEADLINE (R67): 1.0 µs after the request the queue of a hart stops; the instruction at its head, if it is
still executing, stops at an element boundary, at element `el` where the world outside the model says so (log 4). A hart at
M has not been reached by the request (R394). -/
def execEvDrainDeadline (h el : Nat) (s : State) : Out :=
  let x := s.hart h
  match s.band? x.band with
  | none => .next s
  | some b =>
    if b.phase ≠ .stopping ∨ !b.markers.contains (markerOf h) ∨ !x.live ∨ x.level = .m ∨ x.vq.isEmpty ∨ b.drained.contains h ∨
        s.clock < b.preemptAt + 1000 ∨ s.cutAt.isSome then .next s
    else .next { s.setBand x.band { b with drained := h :: b.drained } with cutAt := some (h, el), agent := .queue h }

/-- The hart of a marker, where it is a hart's. -/
def hartOfMarker (b : Band) (m : Nat) : Option Nat :=
  if m % 10 < 8 then some ((b.stack * 4 + m / 10) * 8 + m % 10) else none

/-- A scalar access whose answer traps while the queue image keeps earlier instructions has not executed (R388): the hart
gives it up and issues it again after the resume. -/
def unanswered (s : State) (h : Nat) : State :=
  if !(s.hart h).vq.isEmpty && answerTraps s h then forgo s h else s

/-- The engine of a marker has stopped (R67, R397): a queue has drained or been cut, its hart is below M and every
earlier store of it has been performed or refused; the matrix sequencer has completed its current instruction; copies stand
at a boundary between steps. -/
def markerDue (s : State) (b : Band) (m : Nat) : Bool :=
  match hartOfMarker b m with
  | none => decide (m % 10 ≠ 8) || !inMatrix s (b.stack * 4 + m / 10)
  | some h =>
    let x := s.hart h
    let t := unanswered s h
    (x.vq.isEmpty || b.drained.contains h) && decide (x.level ≠ .m) && (t.hart h).await.isNone && decide (x.colPend = 0) &&
      !(t.reqs.any (fun e => e.2.src == h))

/-- The save slots that a stopped band takes: the lowest that no band of its stack holds (log 42). -/
def pickSlots (s : State) (st n : Nat) : List Nat :=
  ((upto 0 14).filter (fun k => !(s.bands.any (fun e => e.2.stack == st && e.2.slots.contains k)))).take n

/-- The last marker has returned: the band is stopped and its save begins; its node is SUSPENDED (R50, R67). -/
def beginSave (s : State) (bi : Nat) (b : Band) : State :=
  let s1 := (noteStop s b.cid b.cores).setBand bi { b with
    phase := .saving, markers := [], slots := pickSlots s b.stack b.crews.length, reserved := 0 }
  s1.modNode b.node (fun n => { n with st := .suspended })

/-- The number under which the window writes of a marker's engine wait (R238). -/
def markerWho (b : Band) (m : Nat) : Nat :=
  match hartOfMarker b m with
  | none => (if m % 10 = 8 then 512 else 576) + (b.stack * 4 + m / 10)
  | some h => h

/-- QUIESCE_MARKER_RETURN (R67, R397): every earlier store is performed first, as with DRAINST; the records of the hart's
refused stores are posted before it. -/
def execEvQuiesceMarkerReturn (bd m : Nat) (s : State) : Out :=
  match s.band? bd with
  | none => .next s
  | some b =>
    if b.phase ≠ .stopping ∨ !b.markers.contains m ∨ !markerDue s b m ∨ (s.stack b.stack).halted then .next s
    else
      let s0 := flushParts (fun w => w.who == markerWho b m) s
      let s1 := match hartOfMarker b m with
        | none => s0
        | some h => { postAll (unanswered s0 h) h with cutAt := if s.cutAt.any (fun c => c.1 == h) then none else s.cutAt }
      let b1 := { b with markers := b.markers.filter (fun k => k != m) }
      .next (if b1.markers.isEmpty then beginSave s1 bd b1 else s1.setBand bd b1)

/-- The records of a band's harts in the queue of a core: not those of harts that have ended (R405). -/
def recOf (hs : List Nat) (cid : Nat) (r : SfRec) : Bool := r.cid == cid && !r.ended && hs.any (fun h => h % 8 == r.hart)

/-- A hart as a slot holds it: its wait is abandoned, and its streams have discarded what had arrived (R59, R224). -/
def Hart.saved (x : Hart) : Hart :=
  { x with wait := none, streams := x.streams.map (fun e => (e.1, { e.2 with fetched := [] })) }

/-- What a slot takes of a core: the crew's harts with their queues as images, its engine state and its records (R42,
R67, R396). A waiting instruction begins again after the resume. -/
def slotOf_ (s : State) (bi : Nat) (b : Band) (i : Nat) : Slot :=
  let core := b.stack * 4 + i
  let c := s.core core
  let hs := victimHarts s bi b i
  let mine := decide (c.resident = some b.cid)
  { band := bi, crew := i, harts := hs.map (fun h => (h, (s.hart h).saved))
    tiles := if mine then c.tiles else [], latA := if mine then c.latA else [], latB := if mine then c.latB else []
    typA := if mine then c.typA else [], typB := if mine then c.typB else []
    mseq := if hs.contains c.mseq.owner then c.mseq else Seq.reset
    cseq := if hs.contains c.cseq.owner then c.cseq else Seq.reset
    copies := c.copies.filter (fun x => x.band == bi)
    recs := c.sfrq.filter (recOf hs b.cid) }

/-- A core without the crew that its slot has taken. -/
def leaveCore (s : State) (bi : Nat) (b : Band) (i : Nat) : State :=
  let core := b.stack * 4 + i
  let hs := victimHarts s bi b i
  let s1 := s.modCore core (fun c => { c with
    mseq := if hs.contains c.mseq.owner then Seq.reset else c.mseq
    cseq := if hs.contains c.cseq.owner then Seq.reset else c.cseq
    copies := c.copies.filter (fun x => x.band != bi)
    sfrq := c.sfrq.filter (fun r => !recOf hs b.cid r) })
  settleCore (hs.foldl (fun s h => s.modHart h Hart.vacant) s1) core

/-- SLOT_SAVE_COMPLETE (R50, R67): the band's state stands in its slots, its node is READY with its stamp kept and its
waiting time zero, and its cores are released: first to the band that lane reclaiming was bringing in, which keeps the slices
that have passed (R66). -/
def execEvSlotSaveComplete (bd : Nat) (s : State) : Out :=
  match s.band? bd with
  | none => .next s
  | some b =>
    if b.phase ≠ .saving then .next s
    else
      let s0 := flushParts (fun w => (placeCore (placeOf s.sdp w.pa)).any (fun c => b.cores.contains c)) s
      let s1 := b.slots.zipIdx.foldl (fun t p =>
        t.modStack b.stack (fun k => { k with slots := tins (tdel k.slots p.1) p.1 (slotOf_ s0 bd b p.2) })) s0
      let s2 := (upto 0 b.crews.length).foldl (fun t i => leaveCore t bd b i) s1
      let s3 := s2.setBand bd { b with phase := .suspended, reclaimAt := none }
      .next (passSlices (s3.modNode b.node (fun n => { n with st := .ready, readyAt := s.clock, waited := 0 })) bd)

/-- The records of a restored crew return to the queue of its core; one that finds no room counts as lost, and the
delivery of its refusal carries TVAL = 0 (R397, R404). -/
def returnRecs (core : Nat) : List SfRec → State → State
  | [], s => s
  | r :: l, s =>
    let c := s.core core
    if c.sfrq.length < 64 then returnRecs core l (s.setCore core { c with sfrq := c.sfrq ++ [r] })
    else
      let s1 := s.setCore core { c with lost := tput 0 c.lost r.cid (tget 0 c.lost r.cid + 1) }
      let hit (p : PendRef) : Bool := p.queued && p.va % 2 ^ 64 == r.va && p.cause == r.cause
      returnRecs core l (s1.modHart (8 * core + r.hart) (fun x =>
        { x with pend := (x.pend.takeWhile (fun p => !hit p)) ++ (match x.pend.dropWhile (fun p => !hit p) with
            | [] => []
            | p :: q => { p with queued := false } :: q) }))

/-- Renames a hart of a restored crew: `m` gives for each saved hart the hart it resumes on. -/
def rename (m : List (Nat × Nat)) (h : Nat) : Nat := ((m.find? (fun e => e.1 == h)).map (·.2)).getD h

/-- What the store instructions of renamed harts have written of lattice parts goes with them (R354). -/
def renameAcc (m : List (Nat × Nat)) (s : State) : State :=
  let f (t : Tab (Nat × Nat)) (e : Nat × Nat × Nat) : Tab (Nat × Nat) :=
    tput (0, 0) t (e.1 / 1024 * 1024 + rename m (e.1 % 1024)) e.2
  { s with latAcc := s.latAcc.foldl f [] }

/-- A restored copy takes its place among those that its engine holds, by the order of acceptance (R292, log 96). -/
def putCopy (l : List CopyCtx) (x : CopyCtx) : List CopyCtx :=
  l.takeWhile (fun y => decide (y.took < x.took)) ++ x :: l.dropWhile (fun y => decide (y.took < x.took))

/-- Restores a slot on its core (R69, R397): harts on the lowest free harts, engine state as saved, copies, whose
descriptors are read again (R295), in the order of acceptance among those that the engine holds, and locks that a saved hart
holds with it. A hart of the crew that has ended keeps no number: 512 names none. -/
def restoreSlot (bi : Nat) (b : Band) (i : Nat) (k : Slot) (s : State) : State :=
  let core := b.stack * 4 + i
  let m := (k.harts.map (·.1)).zip (freeHarts s core)
  let s1 := m.foldl (fun t e =>
    match k.harts.find? (fun x => x.1 == e.1) with
    | none => t
    | some x => t.modHart e.2 (fun y => { x.2 with mentry := y.mentry, retiredAt := s.clock })) (enterCore s core b.cid)
  let s2 := s1.modCore core (fun c =>
    let seq (q old : Seq) : Seq := if q.phase = .free then old else { q with owner := rename m q.owner }
    let mine := k.copies.map (fun x =>
      { x with hart := rename m x.hart, body := if x.x then x.body else descAt s core x.desc })
    { c with
      tiles := k.tiles, latA := k.latA, latB := k.latB, typA := k.typA, typB := k.typB
      mseq := seq k.mseq c.mseq, cseq := seq k.cseq c.cseq
      copies := mine.foldl putCopy c.copies })
  let s3 := returnRecs core (k.recs.map (fun r => { r with hart := rename m (8 * core + r.hart) % 8 })) s2
  let s4 := s3.modVeld b.stack (fun v => { v with locks := tmap (fun _ l =>
    if l.band = bi ∧ coreOf l.hart = core then { l with hart := rename m l.hart } else l) v.locks })
  let s5 := renameAcc m s4
  let crew (l : List Nat) : List Nat := l.map (fun h => if m.any (fun e => e.1 == h) then rename m h else 512)
  fitCeiling (s5.modBand bi (fun x => { x with crews := x.crews.zipIdx.map (fun p =>
    if p.2 = i then crew p.1 else p.1) })) core

/-- A NEXT above what free slices allow falls by the repeated step of R65 (R69). -/
def fitFree (s : State) (core : Nat) : State :=
  let hs := (liveHarts s core).filter (fun h => decide ((s.hart h).cur < (s.hart h).next))
  lowerSteps hs false (ceilDiv (usedSlices s core - 48) 4) s

/-- The restore of a suspended band begins: nothing of it runs until it is complete (R67, R69). -/
def startRestore (s : State) (n : Nat) (x : Node) (bi : Nat) (b : Band) : State :=
  let s := loadTables s x.cid
  let s1 := b.slots.zipIdx.foldl (fun t p =>
    match ((s.stack b.stack).slots.find? (fun e => e.1 == p.1)).map (·.2) with
    | none => t
    | some k => restoreSlot bi b p.2 k t) s
  let s2 := b.cores.foldl fitFree s1
  (s2.modBand bi (fun y => { y with phase := .restoring, drained := [] })).setNode n
    { x with st := .running, waited := x.waitTime s }

/-- A delivery that a restored band owes a hart is taken before any instruction of it, the entries of its queue image
included (R404). -/
def oweRestored (s : State) (h : Nat) : State := s.modHart h (fun x => { x with owed := x.open_ && !x.pend.isEmpty })

/-- SLOT_RESTORE_COMPLETE (R69, R404): the band's slots are free and its harts resume; a free slot keeps its bytes (R18). -/
def execEvSlotRestoreComplete (bd : Nat) (s : State) : Out :=
  match s.band? bd with
  | none => .next s
  | some b =>
    if b.phase ≠ .restoring then .next s
    else
      let s2 := s.setBand bd { b with phase := .running, slots := [] }
      .next ((bandLive s2 bd b).foldl oweRestored s2)

end Sys2Proof.Machine
end

