-- ==== Sys2Proof/Machine/System.lean ====
section
/-! DEFINITION. The system instructions (R174 to R181). -/
namespace Sys2Proof.Machine

/-- ECALL (R175): the environment call of the level, or an illegal instruction at M. -/
def execEcall (s : State) : Out :=
  scalarX .ecall (do
    match (← myHart).level with
    | .n => trap cECALLN 0
    | .s => trap cECALLS 0
    | .m => illegal .ecall) s

/-- What a debug halt does to a wait: WFI has ended, so that its hart goes on behind it (R141, R177); LLDT, LFLUSH and a
SPTSW that waits are abandoned and begin again in full (R141, R361, R362). -/
def Hart.haltWait (x : Hart) : Hart :=
  match x.wait with
  | none => x
  | some w =>
    match w.what with
    | .wfi => { x with pc := nextPC x.pc x.nh, wait := none }
    | .lldt _ _ _ _ => { x with wait := none }
    | .lflush => { x with wait := none }
    | .sptsw _ _ => { x with wait := none }
    | _ => x

/-- A stack halts for debug (R402). -/
def haltStack (s : State) (st : Nat) : State :=
  let out (h : Nat) (x : Hart) : Hart := if stackOf h = st then x.haltWait else x
  let s1 := s.modStack st (fun t => { t with halted := true })
  { s1 with harts := tmap out s1.harts }

/-- EBRK (R175): a debug halt of the stack where a debugger is armed, else a breakpoint. -/
def execEbrk (s : State) : Out :=
  scalarX .ebrk (do
    if bit (← myHart).hstat 4 then modify (fun s => haltStack s (coreStack (agentCore s)))
    else trap cBRKPT 0) s

/-- TRET (R176, R389). -/
def execTret (s : State) : Out :=
  jumpX .tret (do
    let x ← myHart
    if x.level = .n ∨ !x.inHandler then illegal .tret
    needQueue
    if statBad x then trap cBADSTAT x.tstat
    onMe Hart.tret) s

/-- YIELD is a hint (R177). -/
def execYield (s : State) : Out := scalarX .yield (pure ()) s

/-- WFI (R177): at N as YIELD; else the hart issues nothing until an interrupt is pending. A pre-emption or a debug halt
ends it where they reach the hart. A request that has reached the hart before it executes a WFI at M, and is held until
the hart is below M (R394), does not end that WFI (log 74). -/
def execWfi (s : State) : Out :=
  scalarX .wfi (do
    let x ← myHart
    if x.level = .n ∨ bit x.hstat 9 then pure ()
    else
      let now := (← get).clock
      onMe (fun y => { y with wait := some { what := .wfi, start := now, met := [], expired := false, note := [] } })
      stall) s

/-- DRAINST (R169): every earlier store has been performed or refused, and every record is posted. -/
def execDrainst (s : State) : Out :=
  scalarX .drainst (do
    needAll
    modify (fun s => postAll s (agentHart s))) s

/-- IFENCE (R170): every line that the hart has fetched is discarded. The stores that it waits for are the scalar ones on
their way, not the vector stores that still stand in the hart's queue (log 73). -/
def execIfence (s : State) : Out :=
  scalarX .ifence (do
    needPosted
    onMe (fun x => { x with ilines := [] })) s

/-- A supervisor instruction below its level is illegal (R96, R178, R180, R181). -/
def needLevel (i : Instr) (l : Level) : X Unit := do
  if !(← myHart).level.atLeast l then illegal i

/-- A cached translation overlaps a range of virtual addresses. -/
def TlbE.meets (e : TlbE) (base size : Nat) : Bool := decide (e.vbase < base + size) && decide (base < e.vbase + e.size)

/-- XINV of one page: cached translations of the page go, and every stack loads the whole vector page table (R178, R179,
R246). -/
def xinvPageCtx (s : State) (c : Context) (base size : Nat) : Context :=
  { c with tlb := c.tlb.filter (fun e => !e.meets base size), vpt := vptLoad s c.vptb }

/-- XINV of a whole context (R178, R179). -/
def xinvCtxAll (s : State) (c : Context) : Context := { c with tlb := [], vpt := vptLoad s c.vptb }

/-- The stacks that an invalidation of the agent's core cannot reach (R32, R36). -/
def farStacks (s : State) : List Nat := (upto 0 16).filter (fun t => reachOn s 2 2 (coreStack (agentCore s)) t ≠ .ok)

/-- An invalidation goes to all 16 stacks on channel 2 and is acknowledged there; the hart waits while a stack cannot be
reached (R32, R179, R180). -/
def broadcast : X Unit := do
  let s ← get
  let far := farStacks s
  if !far.isEmpty then
    modify (fun s => far.foldl (fun s t => logOn s 2 2 (coreStack (agentCore s)) t) s)
    stall

/-- XINV page (R178, R179). -/
def execXinvPage (psz : BitVec 4) (a : SReg) (s : State) : Out :=
  scalarX (.xinvPage psz a) (do
    needLevel (.xinvPage psz a) .s
    let va ← rd a
    let size := pageBytes psz.toNat
    let base := fld va 0 57 / size * size
    let cid ← myCid
    broadcast
    if vptLocked (← get) cid then stall
    modify (fun s => s.modCtx cid (fun c => xinvPageCtx s c base size))) s

/-- XINV ctx (R178, R179). -/
def execXinvCtx (s : State) : Out :=
  scalarX .xinvCtx (do
    needLevel .xinvCtx .s
    let cid ← myCid
    broadcast
    if vptLocked (← get) cid then stall
    modify (fun s => s.modCtx cid (xinvCtxAll s))) s

/-- XINV rdt (R178, R179). -/
def execXinvRdt (s : State) : Out :=
  scalarX .xinvRdt (do
    needLevel .xinvRdt .s
    let cid ← myCid
    broadcast
    if rdtLocked (← get) cid then stall
    modify (fun s => s.modCtx cid (fun c => { c with rdt := rdtLoad s c.rdtb }))) s

/-- XINV all, at machine level (R178, R179). -/
def execXinvAll (s : State) : Out :=
  scalarX .xinvAll (do
    needLevel .xinvAll .m
    broadcast
    let u ← get
    if (tkeys u.ctxs).any (fun c => u.usesCtx c && vptLocked u c) then stall
    modify (fun s => { s with ctxs := tmap (fun k c => if s.usesCtx k then xinvCtxAll s c else c) s.ctxs })) s

/-- A vector or engine access of a context is still to be performed or to fault: queued vector instructions, Col entries
and copies (R180). A sequencer's instruction performs its accesses in its step (log 75); the window writes that wait are
performed by SPTSW. -/
def accessPends (s : State) (cid : Nat) : Bool :=
  (s.ctxHarts cid).any (fun h => !(s.hart h).vq.isEmpty || decide ((s.hart h).colPend ≠ 0)) ||
    s.cores.any (fun e => (e.2.cfault.isNone && e.2.copies.any (fun x => x.cid == cid)) ||
      e.2.nodeCopy.any (fun x => x.cid == cid))

/-- SPTSW (R180): waits for the vector and engine accesses that the context has issued, while other harts of it stall at
their next access, from the first wait until the acknowledgements are in; then switches the root. -/
def execSptsw (d a : SReg) (s : State) : Out :=
  scalarX (.sptsw d a) (do
    needLevel (.sptsw d a) .s
    let cid ← myCid
    let s ← get
    if (accessPends s cid || !(farStacks s).isEmpty) && (waitOf (← myHart) (.sptsw d a)).isNone then beginWait (.sptsw d a)
    if accessPends s cid then stall
    broadcast
    modify (flushParts (fun w => w.cid == cid))
    let v ← rd a
    wr d (s.ctx cid).spt
    modify (fun s => s.modCtx cid (fun c => { c with spt := copyFld c.spt v 0 36, tlb := [] }))) s

/-- The crew of a band that holds a hart, by index. -/
def crewOf (b : Band) (h : Nat) : Nat := b.crews.findIdx (fun c => c.contains h)

/-- A crew ends by TKILL (R181): its harts stop with their queues, their sequencers stop, and each counts as having
executed NEND; the exit code is that of the first TKILL of the graph (R415). -/
def killCrew (s : State) (h code : Nat) : State :=
  let bi := (s.hart h).band
  match s.band? bi with
  | none => endHart s h
  | some b =>
    let ci := crewOf b h
    let crew := (b.crews.getD ci [h]).filter (fun x => (s.hart x).live && (s.hart x).band == bi)
    let s0 := noteStop s b.cid [b.stack * 4 + ci]
    let s1 := crew.foldl (fun s x => dropHartCopies x (dropSeqs x s)) s0
    let s2 := s1.modBand bi (fun b => { b with killed := ci :: b.killed })
    let s3 := match s2.node? b.node with
      | none => s2
      | some n => s2.modGraph n.graph (fun g => { g with cend := true, exit := match g.exit with
          | none => some code
          | some c => some c })
    passSlices (crew.foldl endHart s3) bi

/-- TKILL (R181). -/
def execTkill (a : SReg) (s : State) : Out :=
  jumpX (.tkill a) (do
    needLevel (.tkill a) .s
    if !(← myHart).inHandler then illegal (.tkill a)
    let v ← rd a
    modify (fun s => killCrew s (agentHart s) (fld v 0 16))) s

end Sys2Proof.Machine
end

