-- ==== Sys2Proof/Machine/Veld.lean ====
section
/-! DEFINITION. The Veld instructions at the hart (R332 to R334, R340 to R345), and what they share with launch nodes. -/
namespace Sys2Proof.Machine

/-- Cause of a launch fault or the precise fault of a check: code and TVAL. -/
abbrev VFault := Nat × W

/-- The subarrays of a descriptor in ascending order (R332): virtual address, layer, bank and subarray. -/
def descSubs (d : Nat) : List (W × Nat × Nat × Nat) :=
  (setBitsOf (bitsOf d 192 16) 16).flatMap (fun l =>
    (setBitsOf (bitsOf d 64 64) 64).flatMap (fun b =>
      (setBitsOf (bitsOf d 128 64) 64).map (fun u =>
        (wd (bitsOf d 0 64) + wd (l * 2 ^ 32 + b * 2 ^ 26 + u * 2 ^ 20), l, b, u))))

/-- The fields that a launch and a lock both check (R334, R340). -/
def regionOk (d : Nat) : Bool :=
  bitsOf d 257 255 == 0 && bitsOf d 192 16 != 0 && bitsOf d 64 64 != 0 && bitsOf d 128 64 != 0 &&
    decide (popNat (bitsOf d 128 64) 64 ≤ 8) && bitsOf d 0 36 == 0

/-- A launch descriptor that passes step 2 of R334. -/
def launchOk (d : Nat) : Bool := regionOk d && bitsOf d 208 16 != 0

/-- A lock descriptor that passes step 2 of R334 with the unused fields zero (R340). -/
def lockOk (d : Nat) : Bool := regionOk d && bitsOf d 208 49 == 0

/-- A translation through the ENGINE port with the faults of step 3 of R334. -/
def veldAddr (s : State) (r : Rq) (ks : List AKind) (va : W) : Except VFault Nat :=
  let bad := match regionOf (s.ctx r.cid) va with
    | none => false
    | some e => e.bad
  ks.foldl (fun acc k => match acc with
    | .error e => .error e
    | .ok _ => match vpTranslate s r k va with
      | .error c => .error (c, va)
      | .ok pa => if bad then .error (cPERM, va) else .ok pa) (.ok 0)

/-- The region descriptor lets the Veld address the page (R317, R334). -/
def veldRegion (s : State) (cid : Nat) (va : W) : Bool :=
  match regionOf (s.ctx cid) va with
  | none => true
  | some e => e.lt == 0 && !e.ub && !e.cmp && e.key == 0

/-- Steps 3 and 4 of R334 for a region: its subarrays as addresses divided by 2^20. -/
def checkRegion (s : State) (r : Rq) (d : Nat) : Except VFault (List Nat) :=
  let subs := descSubs d
  match subs.findSome? (fun x => match veldAddr s r [.read, .write] x.1 with
      | .error e => some e
      | .ok _ => none) with
  | some e => .error e
  | none =>
    let pa (x : W × Nat × Nat × Nat) : Nat := match veldAddr s r [.read, .write] x.1 with
      | .error _ => 0
      | .ok a => a
    match subs.find? (fun x => pa x ≠ linAddr r.stack x.2.1 x.2.2.1 x.2.2.2 0 0 || !veldRegion s r.cid x.1 ||
        withheld s.sdp (pa x)) with
    | some x => .error (cLAUNCH, x.1)
    | none => .ok (subs.map (fun x => pa x / 2 ^ 20))

/-- Step 1 of R334. -/
def descOffset (off : W) : X Nat := do
  if off.toNat % 64 ≠ 0 then trap cMISALIGN off
  if spBytes (← get).sdp < off.toNat + 64 then trap cXLATE off
  return descAt (← get) (← myCore) off.toNat

/-- What Veld instructions wait for before their checks (R334). -/
def veldEnter : X Unit := do
  needQueue
  needPosted

/-- Raises the fault of a check. -/
def veldThrow {α : Type} (x : Except VFault α) : X α :=
  match x with
  | .error e => trap e.1 e.2
  | .ok a => pure a

/-- Changes the sequencer of the agent's stack. -/
def onVeld (f : Veld → Veld) : X Unit := modify (fun s => s.modVeld (coreStack (agentCore s)) f)

/-- Steps 5 and 6 of R334: the operation joins the queue of the core and D takes its number; earlier COLSTs have
completed. -/
def joinQueue (d : SReg) (op : VOp) : X Unit := do
  let s ← get
  let core := agentCore s
  let q := (s.stack (coreStack core)).veld.queue (core % 4)
  if 8 ≤ q.ops.length ∨ q.err.isSome then stall
  if (← myHart).colPend ≠ 0 then stall
  if sptHeld s .engine .read then stall
  let k := tlKey op.cid core 2
  let s1 := s.modTl k Timeline.accept
  let num := (s1.tl k).acc
  set (s1.modVeld (coreStack core) (fun v => v.modQueue (core % 4) (fun x => { x with ops := x.ops ++ [{ op with num := num }] })))
  wr d (wd num)

/-- The operation that a launch descriptor describes (R332). -/
def launchOp (d cid core : Nat) (node : Option Nat) (subs : List Nat) : VOp :=
  { kind := .launch, cid := cid, core := core, num := 0, node := node, subs := subs, rows := [], va := wd (bitsOf d 0 64)
    lmask := bitsOf d 192 16, iter := bitsOf d 208 16, mcoff := bitsOf d 224 16, rstep := sInt 16 (bitsOf d 240 16)
    dv := bitsOf d 256 1 == 1 }

/-- VLAUNCH (R333, R334). -/
def execVlaunch (d a : SReg) (s : State) : Out :=
  scalarX (.vlaunch d a) (do
    veldEnter
    let off ← rd a
    let x ← descOffset off
    if !launchOk x then trap cLAUNCH off
    let r ← myRq
    let subs ← veldThrow (checkRegion (← get) r x)
    joinQueue d (launchOp x r.cid (← myCore) none subs)) s

/-- The dropped operations of a cleared queue leave their timelines (R334); the node of a dropped launch of a node stays RUNNING
(log 90). -/
def dropOps (s : State) : List VOp → State
  | [] => s
  | o :: l =>
    dropOps (if o.node.isSome then s
      else s.modTl (tlKey o.cid o.core 2) (fun t => { (t.complete o.num) with err := none })) l

/-- VLAUNCH with CLR = 1 (R334): a faulted queue drops its operations and its error; TLC2 of the context moves to the
number of the last operation accepted. -/
def execVlaunchClear (d : SReg) (s : State) : Out :=
  scalarX (.vlaunchClear d) (do
    let s ← get
    let core := agentCore s
    let st := coreStack core
    let k := tlKey (← myCid) core 2
    let q := (s.stack st).veld.queue (core % 4)
    if q.err.isSome then
      set (((dropOps s q.ops).modVeld st (fun v => v.modQueue (core % 4) (fun x => { x with ops := [], err := none }))).modTl k
        (fun t => { t with cnt := t.acc, done := [], err := none }))
    wr d (wd ((← get).tl k).acc)) s

/-- What a window showed of rows before they were locked is gone (R263, R348). -/
def cleanRows (s : State) (subs : List Nat) (rows : List (Nat × Nat)) : State :=
  { s with stale := s.stale.filter (fun e => !rowIn subs rows (e.1 / 2 * 16)) }

/-- Subarrays that the running operation or a lock entry holds. -/
def heldBy (v : Veld) (subs : List Nat) : Bool :=
  (match v.run with
    | none => false
    | some r => subs.any (fun u => r.op.subs.contains u || r.op.rows.any (fun p => p.1 / 1024 == u || p.2 / 1024 == u))) ||
  v.locks.any (fun e => e.2.subs.any subs.contains)

/-- Lock entries in use (R340, R345). -/
def Veld.inUse (v : Veld) : Nat := v.locks.length + (if v.run.isSome then 1 else 0)

/-- VRLOCK (R340): which of the free entries it takes the spec leaves open (log 18). -/
def execVrlock (d a : SReg) (s : State) : Out :=
  scalarX (.vrlock d a) (do
    veldEnter
    let off ← rd a
    let x ← descOffset off
    if !lockOk x then trap cLAUNCH off
    let r ← myRq
    let subs ← veldThrow (checkRegion (← get) r x)
    let s ← get
    let st := coreStack (agentCore s)
    let v := (s.stack st).veld
    if heldBy v subs ∨ 16 ≤ v.inUse then stall
    let free := (upto 0 16).filter (fun e => !v.locks.any (fun l => l.1 == e))
    let ent := free.getD ((Config.unstated s.ticks 16).toNat % free.length) 0
    let h := agentHart s
    let lock : VLock := { cid := r.cid, hart := h, band := (s.hart h).band, subs := subs, start := s.clock }
    set ((cleanRows s subs []).modVeld st (fun v => { v with locks := tins v.locks ent lock }))
    wr d (wd ent)) s

/-- VRUNLOCK (R341). -/
def execVrunlock (dv : Bool) (a : SReg) (s : State) : Out :=
  scalarX (.vrunlock dv a) (do
    let ent ← rd a
    let s ← get
    let cid ← myCid
    let v := (s.stack (coreStack (agentCore s))).veld
    if !v.locks.any (fun l => l.1 == ent.toNat && l.2.cid == cid) then trap cPERM ent
    needAll
    onVeld (fun v => { v with locks := tdel v.locks ent.toNat })) s

/-- A row of VZERO or VCLONE after step 3 of R334: its physical address (R343). -/
def rowAddr (s : State) (r : Rq) (k : AKind) (va : W) : Except VFault Nat :=
  match veldAddr s r [k] va with
  | .error e => .error e
  | .ok pa => if pa < interBase ∧ 1008 ≤ linRow pa then .error (cXLATE, va) else .ok pa

/-- Step 4 of R334 on a row's own subarray (R343). A row has no region and so no virtual offset: the test of equal layer, bank
and subarray numbers falls away (log 89). -/
def rowOk (s : State) (r : Rq) (va : W) (pa : Nat) : Bool :=
  decide (pa < interBase) && linStack pa == r.stack && veldRegion s r.cid va && !withheld s.sdp pa

/-- The rows of an operation with their translations: each check over all rows before the next (R343). A fault carries the
row's own virtual address (log 107). -/
def checkRows (s : State) (r : Rq) (rows : List (AKind × W)) : Except VFault (List Nat) :=
  let at_ (x : AKind × W) : Nat := match rowAddr s r x.1 x.2 with
    | .error _ => 0
    | .ok pa => pa
  match rows.findSome? (fun x => match rowAddr s r x.1 x.2 with
      | .error e => some e
      | .ok _ => none) with
  | some e => .error e
  | none =>
    match rows.find? (fun x => !rowOk s r x.2 (at_ x)) with
    | some x => .error (cLAUNCH, x.2)
    | none => .ok (rows.map at_)

/-- The layers of rows given as address divided by 1,024, as a mask. -/
def rowLayers (rows : List (Nat × Nat)) : Nat :=
  rows.foldl (fun m p => m ||| 2 ^ linLayer (p.1 * 1024) ||| 2 ^ linLayer (p.2 * 1024)) 0

/-- VZERO and VCLONE (R342 to R344, R347). -/
def rowX (i : Instr) (d : SReg) (kind : VKind) (dv : Bool) (dst : X W) (src : Option (X W)) (cnt : X W) (s : State) : Out :=
  scalarX i (do
    veldEnter
    let a ← dst
    let b ← match src with
      | none => pure none
      | some x => some <$> x
    let n ← cnt
    if a.toNat % 1024 ≠ 0 then trap cMISALIGN a
    match b with
    | none => pure ()
    | some v => if v.toNat % 1024 ≠ 0 then trap cMISALIGN v
    if 1008 < n.toNat then trap cLAUNCH n
    let r ← myRq
    let at_ (x : W) (k : Nat) : W := x + wd (1024 * k)
    let list : List (AKind × W) := (upto 0 n.toNat).flatMap (fun k =>
      (AKind.write, at_ a k) :: match b with
        | none => []
        | some v => [(AKind.read, at_ v k)])
    let pas ← veldThrow (checkRows (← get) r list)
    let rows : List (Nat × Nat) := match b with
      | none => pas.map (fun p => (p / 1024, p / 1024))
      | some _ => (upto 0 n.toNat).map (fun k => (pas.getD (2 * k) 0 / 1024, pas.getD (2 * k + 1) 0 / 1024))
    joinQueue d { kind := kind, cid := r.cid, core := ← myCore, num := 0, node := none, subs := [], rows := rows, va := a
                  lmask := rowLayers rows, iter := 0, mcoff := 0, rstep := 0, dv := dv }) s

/-- VZERO (R342 to R344). -/
def execVzero (d : SReg) (dv : Bool) (a b : SReg) (s : State) : Out :=
  rowX (.vzero d dv a b) d .zero dv (rd a) none (rd b) s
/-- VCLONE (R342 to R344). -/
def execVclone (d : SReg) (dv : Bool) (a b c : SReg) (s : State) : Out :=
  rowX (.vclone d dv a b c) d .clone dv (rd a) (some (rd b)) (rd c) s

/-- A mask of the layers that satisfy `p`. -/
def layerMask (t : Stack) (p : Layer → Bool) : Nat :=
  ((upto 0 16).filter (fun l => p (t.layer l))).foldl (fun n l => n + 2 ^ l) 0

/-- A layer counts as awake (R382). -/
def Layer.awake (x : Layer) : Bool :=
  match x.st with
  | .asleep => false
  | .catchup => x.powered
  | .current => true

/-- What VQUERY reads (R345, R382); SEL 6 to 15 has no encoding that decodes. -/
def queryWord (t : Stack) (sel q : Nat) : W :=
  let v := t.veld
  let k := v.queue q
  let runs := match v.run with
    | none => false
    | some r => r.q == q
  match sel with
  | 0 => wd (k.ops.length % 16 + b01 runs * 16 + b01 k.err.isSome * 32)
  | 1 => wd (layerMask t Layer.awake + 65536 * layerMask t (fun x => x.st = .current))
  | 2 => wd k.lastT
  | 3 => (k.err.map (·.fword)).getD 0
  | 4 => wd (b01 v.balanced)
  | _ => wd v.inUse

/-- VQUERY (R345). -/
def execVquery (d : SReg) (sel : BitVec 4) (a : SReg) (s : State) : Out :=
  scalarX (.vquery d sel a) (do
    need (.vquery d sel a) (sel.toNat < 6)
    let q := (← rd a).toNat % 4
    wr d (queryWord ((← get).stack (coreStack (← myCore))) sel.toNat q)) s

end Sys2Proof.Machine
end

