-- ==== Sys2Proof/Machine/EvLife.lean ====
section
/-! DEFINITION. The mailbox and its commands (R402, R416, R417), BAR0 and window writes (R173, R237, R409), fatal removal
at request (R71), power (R65, R376, R424), and the life cycle (R420 to R423). -/
namespace Sys2Proof.Machine

/-- Mailbox arguments 0 to 3 (R417). -/
def State.arg (s : State) (i : Nat) : Nat := (tget 0 s.mbarg i).toNat

/-- MBSTAT (R417): 1 busy, 2 done, 3 refused. -/
def State.mbEnd (s : State) (done : Bool) : State := { s with mbstat := if done then 2 else 3 }

/-- A context as its descriptor describes it, with its tables loaded (R179, R245, R246, R416). -/
def contextOf (s : State) (d : Nat) : Context :=
  let f (lo : Nat) : W := wd (bitsOf d lo 64)
  let c : Context := { Context.reset with
    installed := true
    spt := copyFld Context.reset.spt (f 0) 0 36, vptb := copyFld 0 (f 64) 20 28, rdtb := copyFld 0 (f 128) 12 36
    tvec := vecWrite 0 (f 192), exitv := vecWrite 0 (f 256), ubpool := copyFld 0 (f 320) 12 52
    acnt := bitsOf d 384 64, wdog := if bitsOf d 448 32 = 0 then 100000 else bitsOf d 448 32 }
  { c with vpt := vptLoad s c.vptb, rdt := rdtLoad s c.rdtb }

/-- A physical range that the device reads or writes for a command holds memory that it may reach (R18, R408). -/
def cmdRange (s : State) (k : AKind) (pa n : Nat) : Bool := (upto pa n).all (fun a => (rawAddr s k a).isSome)

/-- A command waits, busy, while rows of a buffer or a table that it reads are locked (R263, R337); no context holds those
locks for it. -/
def cmdLocked (s : State) (pa n : Nat) : Bool := rangeLocked s mgmtCid pa n

/-- Command 0x01 (R416, R417): refused where the descriptor cannot be read, sets a reserved bit, or names a context that
is installed. -/
def mbInstall (s : State) : State :=
  let pa := s.arg 0
  let d := rawNat s pa 64
  let cid := bitsOf d 480 16
  if cmdLocked s pa 64 then s
  else if !cmdRange s .read pa 64 ∨ bitsOf d 496 16 ≠ 0 ∨ (s.ctx cid).installed ∨ !(s.ctxHarts cid).isEmpty then s.mbEnd false
  else if cmdLocked s (fld (wd (bitsOf d 64 64)) 20 28 * 2 ^ 20) (2 ^ 20) ∨
      cmdLocked s (fld (wd (bitsOf d 128 64)) 12 36 * 4096) 4096 then s
  else (s.setCtx cid (contextOf s d)).mbEnd true

/-- Command 0x02 (R71, R417): removal with cause 0x34, once no halt holds a band of the context. -/
def mbRemove (s : State) : State :=
  let cid := s.arg 0
  if !(s.ctx cid).installed then s.mbEnd false
  else if haltedContext s cid then s
  else (removeContext s cid 0x34 0).mbEnd true

/-- A line under a changed key: what its cells hold decrypts under the new one (R248, R417). -/
def rekeyLine (key : Nat) (s : State) (l : Nat) : State := s.putNat (128 * l) 128 (rekeyed s key l)

/-- Command 0x03 (R417): a key slot takes the 64 bytes of an XTS key (log 51). -/
def mbLoadKey (s : State) : State :=
  let key := s.arg 0
  let pa := s.arg 1
  if key = 0 ∨ 511 < key ∨ !cmdRange s .read pa 64 then s.mbEnd false
  else if cmdLocked s pa 64 then s
  else
    let new := rawNat s pa 64
    let lines := (s.keyIds.filter (fun e => e.2 == key)).map (·.1)
    let s1 := if tget 0 s.keys key = new then s else lines.foldl (rekeyLine new) s
    { s1 with keys := tput 0 s1.keys key new }.mbEnd true

/-- Command 0x04 (R337, R417). -/
def mbArbitrate (s : State) : State :=
  if s.arg 0 < 16 ∧ s.arg 1 < 2 then (s.modVeld (s.arg 0) (fun v => { v with balanced := s.arg 1 == 1 })).mbEnd true
  else s.mbEnd false

/-- Command 0x05 (R402, R417): refused outside DEBUG. -/
def mbHalt (s : State) : State :=
  if s.fuse = .debug ∧ s.arg 0 < 16 then (haltStack s (s.arg 0)).mbEnd true else s.mbEnd false

/-- Command 0x06 (R402, R417): the stack goes on, its copies at their cursors with their descriptors read again
(R296), and removals that it held back act (R403). -/
def mbRelease (s : State) : State :=
  let st := s.arg 0
  if s.fuse ≠ .debug ∨ 16 ≤ st then s.mbEnd false
  else if !(s.stack st).halted then s.mbEnd true
  else
    let s1 := s.modStack st (fun t => { t with halted := false })
    (resumeRemovals ((upto (4 * st) 4).foldl rereadCopy s1)).mbEnd true

/-- The fused value that command 0x07 names (log 52). -/
def fuseOf (x : Nat) : Option Fuse :=
  match x with
  | 0 => some .prod
  | 1 => some .debug
  | 2 => some .rma
  | _ => none

/-- The argument of command 0x07 for a fused value (log 52). -/
def fuseCode (f : Fuse) : Nat :=
  match f with
  | .prod => 0
  | .debug => 1
  | .rma => 2

/-- The changes of the fused value that R421 allows. -/
def fuseMove (old new : Fuse) : Bool :=
  match old, new with
  | .prod, .debug => true
  | .prod, .rma => true
  | .debug, .prod => true
  | .prod, .prod => false
  | .debug, .debug => false
  | .debug, .rma => false
  | .rma, _ => false

/-- Command 0x07 (R421): the part is wiped; the fused value changes after the wipe. -/
def mbLifeCycle (s : State) : State :=
  match fuseOf (s.arg 0) with
  | none => s.mbEnd false
  | some f => if fuseMove s.fuse f then { s with life := .wipe, fuseNew := some f } else s.mbEnd false

/-- The layers' activation counts, the islands' ageing and EOL as they stand when a health record is made; the spec says
what they are and not how they grow (R424, log 50). -/
def takeHealth (s : State) : State :=
  let grown (st : Nat) (t : Stack) : Stack :=
    (upto 0 16).foldl (fun t l => t.modLayer l (fun x =>
      { x with act := (x.act + (Config.unstated s.ticks (1000 + 16 * st + l)).toNat) % 2 ^ 64 })) t
  let s1 := (upto 0 16).foldl (fun s st => s.modStack st (grown st)) s
  { s1 with ageing := (upto 0 96).foldl (fun a i => tput 0 a i (Config.unstated s.ticks (2000 + i)).toNat) s1.ageing
            eol := wd ((Config.unstated s.ticks 3000).toNat % 65536) }

/-- What a health record holds, as bytes: the 64-bit activation count of each layer, the ageing of each island in mV, and
EOL (R424, log 50). -/
def healthBytes (s : State) : List Nat :=
  (upto 0 256).flatMap (fun l => (leBytes 8 ((s.stack (l / 16)).layer (l % 16)).act).map (·.toNat)) ++
    (upto 0 96).flatMap (fun i => (leBytes 2 (tget 0 s.ageing i)).map (·.toNat)) ++ (leBytes 2 s.eol.toNat).map (·.toNat)

/-- The bytes of the record in its buffer: each byte of the contents stands in it once, at a free place among free further
bytes, since the spec gives no layout (R424, log 50). -/
def healthRecord (s : State) : List Nat :=
  let further := (upto 0 (Config.healthPad % 1024)).map (fun i => (Config.unstated s.ticks (4000 + i)).toNat % 256)
  (healthBytes s).foldl (fun r b => r.insertIdx (Config.healthPlace r.length % (r.length + 1)) b) further

/-- Command 0x08 (R424): the record goes to the buffer. -/
def mbHealth (s : State) : State :=
  let pa := s.arg 0
  let n := (healthBytes s).length + Config.healthPad % 1024
  if !cmdRange s .write pa n then s.mbEnd false
  else if cmdLocked s pa n then s
  else
    let t := takeHealth s
    let x := healthRecord t
    ((upto 0 n).foldl (fun s i => rawPut s (pa + i) 1 (x.getD i 0)) t).mbEnd true

/-- The busy command acts (R417); an unlisted command is refused. -/
def mbRun (s : State) : State :=
  match s.mbcmd.toNat with
  | 0x01 => mbInstall s
  | 0x02 => mbRemove s
  | 0x03 => mbLoadKey s
  | 0x04 => mbArbitrate s
  | 0x05 => mbHalt s
  | 0x06 => mbRelease s
  | 0x07 => mbLifeCycle s
  | 0x08 => mbHealth s
  | _ => s.mbEnd false

/-- A write to MBCMD (R417): ignored while a command is busy; the firmware that takes it runs in READY alone (R423). -/
def mbWrite (s : State) (cmd : W) : State :=
  if s.life ≠ .ready ∨ s.mbstat = 1 then s else mbRun { s with mbcmd := cmd, mbstat := 1 }

/-- The driver writes the arguments of a command and then the command (R417); or the firmware goes on with that command,
which is busy and has waited. -/
def mbCommand (cmd a0 a1 : Nat) (s : State) : Out :=
  if s.life ≠ .ready then .next s
  else if s.mbstat = 1 then
    .next (if s.mbcmd = wd cmd ∧ s.arg 0 = (wd a0).toNat ∧ s.arg 1 = (wd a1).toNat then mbRun s else s)
  else .next (mbWrite { s with mbarg := tput 0 (tput 0 s.mbarg 0 (wd a0)) 1 (wd a1) } (wd cmd))

/-- MB_INSTALL_CONTEXT (R416, R417). -/
def execEvMbInstallContext (pa : Nat) (s : State) : Out := mbCommand 0x01 pa 0 s
/-- MB_REMOVE_CONTEXT (R71, R417). -/
def execEvMbRemoveContext (cid : Nat) (s : State) : Out := mbCommand 0x02 cid 0 s
/-- MB_LOAD_KEY (R417). -/
def execEvMbLoadKey (key pa : Nat) (s : State) : Out := mbCommand 0x03 key pa s
/-- MB_ARBITRATION (R337, R417). -/
def execEvMbArbitration (st : Nat) (bal : Bool) (s : State) : Out := mbCommand 0x04 st (b01 bal) s
/-- MB_DEBUG_HALT (R402, R403). -/
def execEvMbDebugHalt (st : Nat) (s : State) : Out := mbCommand 0x05 st 0 s
/-- MB_DEBUG_RELEASE (R402, R403). -/
def execEvMbDebugRelease (st : Nat) (s : State) : Out := mbCommand 0x06 st 0 s
/-- MB_LIFE_CYCLE_CHANGE (R421). -/
def execEvMbLifeCycleChange (dst : Fuse) (s : State) : Out := mbCommand 0x07 (fuseCode dst) 0 s
/-- MB_HEALTH_RECORD (R424). -/
def execEvMbHealthRecord (pa : Nat) (s : State) : Out := mbCommand 0x08 pa 0 s

/-- FATAL_REMOVAL (R71, R398, R403): a removal that the driver has asked for and that a debug halt held back. A fatal
fault and the hang watchdog remove their context where they occur, or at the end of a debug halt. -/
def execEvFatalRemoval (cid : Nat) (s : State) : Out :=
  if s.life = .ready ∧ s.mbstat = 1 ∧ s.mbcmd = 0x02 ∧ s.arg 0 = cid then .next (mbRemove s) else .next s

/-- A write to BAR0 (R409): an offset that the table does not list ignores it. -/
def bar0Write (s : State) (off : Nat) (v : W) : State :=
  if off < 0x4000 then queueWrite s (off / 0x400) (off / 0x40 % 16) (off % 0x40) v
  else match off with
    | 0x10000 => { s with mbarg := tput 0 s.mbarg 0 v }
    | 0x10008 => { s with mbarg := tput 0 s.mbarg 1 v }
    | 0x10010 => { s with mbarg := tput 0 s.mbarg 2 v }
    | 0x10018 => { s with mbarg := tput 0 s.mbarg 3 v }
    | 0x10020 => mbWrite s v
    | 0x30000 => clampWrite s true (fld v 0 12)
    | _ => match pctlPort off with
      | some p => pctlWrite s p (bit v 0)
      | none => s

/-- The access of the management core to `n` bytes of the on-chip window (R237). -/
def mgmtAcc (pa : Nat) : Acc :=
  { va := pa, pa := pa, key := 0, cmp := false, lt := 0, ub := false, cid := mgmtCid
    from_ := (pa - chipBase) / 2 ^ 32, via := .scalar }

/-- The management core writes 1, 2, 4 or 8 aligned bytes of the on-chip window: it reaches the scratchpads, the registers
of every crew resident on a core, the control registers and the route tables; latches and the Col region take none
(R237). -/
def mgmtWrite (s : State) (pa n : Nat) (v : W) : State :=
  let p := placeOf s.sdp pa
  if !([1, 2, 4, 8].contains n) || pa % n != 0 || !p.chip || (chipDeny p .scalar .write .m n).isSome then s
  else (homeWrite s (mgmtAcc pa) p n (v.toNat % 2 ^ (8 * n)) 640 (covOf (homeAddr (mgmtAcc pa) p) n)).1

/-- The management core reads bytes of the on-chip window (R237). -/
def mgmtRead (s : State) (pa n : Nat) : Nat := (homeRead s (mgmtAcc pa) (placeOf s.sdp pa) n).1.1

/-- REGISTER_WRITE (R173, R237, R395, R409): fields are stored by access type. In FAILED no register takes a write (R420);
the on-chip window and the aperture serve the management core in READY (R32). -/
def execEvRegisterWrite (r : RegTarget) (v : BitVec 64) (s : State) : Out :=
  match r with
  | .window h idx => if s.life = .ready ∧ h < 512 then mgmtAt s (stackOf h) (fun s => crWrite s h idx v) else .next s
  | .bar0 off => if s.life = .failed then .next s else .next (bar0Write s off v)
  | .chip pa n => if s.life = .ready then mgmtAt s (mgmtAcc pa).from_ (fun s => mgmtWrite s pa n v) else .next s
  | .aperture st off => if s.life = .ready then mgmtAt s st (fun s => apertureWrite s st off v) else .next s

/-- A ceiling that R65 allows on a core. -/
def ceilingOk (s : State) (e : Nat × Nat) : Bool :=
  decide (e.1 < 64) && e.2 % 4 == 0 && decide (4 ≤ e.2) && decide (e.2 ≤ 48) &&
    decide (4 * ((liveHarts s e.1).filter (fun h => decide (0 < (s.hart h).req))).length ≤ e.2)

/-- A core takes a ceiling: NEXT falls to fit it, and where the ceiling rises it rises towards REQ (R65). -/
def setCeiling (s : State) (e : Nat × Nat) : State :=
  if !ceilingOk s e then s
  else
    let s1 := fitCeiling (s.modCore e.1 (fun c => { c with ceiling := e.2 })) e.1
    if (s.core e.1).ceiling < e.2 then raiseNext s1 e.1 else s1

/-- A layer goes to sleep: only a CURRENT one that no operation names (R376). -/
def sleepLayer (s : State) (n : Nat) : State :=
  let st := n / 16
  let named := match (s.stack st).veld.run with
    | none => false
    | some r => r.op.lmask.testBit (n % 16)
  if named then s
  else s.modStack st (fun t => t.modLayer (n % 16) (fun x =>
    if x.st = .current then { x with st := .asleep, powered := false } else x))

/-- The power controller wakes a layer (R376). -/
def wakeByPower (s : State) (n : Nat) : State :=
  s.modStack (n / 16) (fun t => t.modLayer (n % 16) (fun x =>
    if x.st = .asleep then { x with st := .catchup, powered := false } else x))

/-- A core stands at the floor of R65: no lower ceiling is allowed, so that its clock falls instead. -/
def atFloor (s : State) (core : Nat) : Bool := !ceilingOk s (core, (s.core core).ceiling - 4)

/-- Power measures stand in the order of R424: Veld delays only beside a lowered core ceiling, lowered clocks only beside
Veld delays; the clock of a core at its floor, or of one whose reduction is overdue, apart (R65, log 82). -/
def powerOrder (s : State) : Bool :=
  let low := (upto 0 64).any (fun c => decide ((s.core c).ceiling < 48))
  let delay := s.veldDelay.any (fun e => e.2 != 0)
  let free (c : Nat) : Bool := decide (c < 64) && (atFloor s c || (s.core c).reduceAt.isSome)
  (!delay || low) && (delay || s.slow.all (fun e => !e.2 || free e.1))

/-- POWER_CONTROLLER_SAMPLE (R39, R40, R65, R376, R424): clocks are those of core islands 0 to 63 and fabric islands 64 to
79. Ceilings, Veld delays and clocks as the sample sets them, in the order that R424 keeps; a clock that an overdue
reduction lowered stays so until the hart's SETVL (R65). -/
def execEvPowerControllerSample (x : PowerSample) (s : State) : Out :=
  if s.life ≠ .ready then .next s
  else
    let s1 := x.ceilings.foldl setCeiling s
    let set_ (l : List Nat) (n : Nat) : Tab Bool := (l.filter (fun i => decide (i < n))).foldl (fun t i => tput false t i true) []
    let s2 := { s1 with
      veldDelay := (x.delays.filter (fun e => decide (e.1 < 16))).foldl (fun t e => tput 0 t e.1 e.2) s1.veldDelay
      slow := set_ (x.slow ++ (upto 0 64).filter (fun c => tget false s1.slow c && (s1.core c).reduceAt.isSome)) 80
      gated := set_ x.gated 64 }
    if !powerOrder s2 then .next s
    else
    let layers (l : List Nat) : List Nat := l.filter (fun n => decide (n < 256))
    .next ((layers x.wake).foldl wakeByPower ((layers x.sleep).foldl sleepLayer s2))

/-- POWER_REDUCTION_DEADLINE (R65): a reduction that no SETVL applied within 2 µs lowers the island's clock. -/
def execEvPowerReductionDeadline (core : Nat) (s : State) : Out :=
  match (s.core core).reduceAt with
  | none => .next s
  | some t =>
    if 64 ≤ core ∨ s.clock < t + 2000 ∨ !reductionPending s core then .next s
    else .next { s with slow := tput false s.slow core true }

/-- RESET (R420, R421): BOOT with every register at its reset value. What DRAM and the memory behind the ports hold stands
until the wipe; the fused value, the links that failed and what a health record counts stay, and so does what the model
counts of its own. -/
def resetPart (s : State) : State :=
  { State.reset with
    mem := s.mem, poison := s.poison, lost := s.lost, keyIds := s.keyIds, tags := s.tags
    softErr := s.softErr, fuse := s.fuse, sdp := s.sdp, eol := s.eol, ageing := s.ageing, linksDown := s.linksDown
    stks := (upto 0 16).foldl (fun t i =>
      tput Stack.reset t i ((upto 0 16).foldl (fun k l =>
        k.modLayer l (fun x => { x with act := ((s.stack i).layer l).act })) Stack.reset)) []
    out := s.out, ticks := s.ticks, resetTick := s.ticks, fresh := s.fresh, agent := s.agent, sched := s.sched }

/-- RESET (R420). -/
def execEvReset (s : State) : Out := .next (resetPart s)

/-- BOOT_IMAGE_VERIFY (R420, R421). -/
def execEvBootImageVerify (ok : Bool) (s : State) : Out :=
  if s.life = .boot then .next { s with life := if ok then .wipe else .failed } else .next s

/-- What the wipe leaves (R248, R318, R422): DRAM zero under key 0 with its special rows as R318 gives, and every SRAM,
register file and key slot clear. Memory behind the ports is not the part's. -/
def wiped (s : State) : State :=
  let keep (a : Nat) : Bool := decide (extBase ≤ a) && decide (a < physEnd)
  { s with
    mem := tfilter keep s.mem, poison := tfilter (fun p => keep (16 * p)) s.poison
    lost := tfilter (fun p => keep (16 * p)) s.lost
    stks := tmap (fun _ t => { t with slots := [] }) s.stks
    keyIds := [], tags := [], softErr := [], stale := [], hostLines := [], winParts := [], latAcc := [], ttl := [], keys := []
    harts := [], cores := [] }

/-- A CXL.mem request held during the wipe is served (R422). -/
def serveHeld (s : State) (x : Held) : State :=
  match x.data with
  | none => hostRead s x.addr
  | some d => hostWrite s x.addr d

/-- WIPE_COMPLETE (R421, R422): READY, or after a life-cycle change the new fused value and a reset. -/
def execEvWipeComplete (s : State) : Out :=
  if s.life ≠ .wipe then .next s
  else
    let s1 := s.held.foldl serveHeld { wiped s with held := [] }
    match s.fuseNew with
    | none => .next { s1 with life := .ready }
    | some f => .next { resetPart s1 with fuse := f, fuseNew := none }

end Sys2Proof.Machine
end

