-- ==== Sys2Proof/Machine/EvSched.lean ====
section
/-! DEFINITION. The node scheduler: ring records (R411, R414), dispatch and aging (R54 to R56, R414), graph completion
(R51, R264, R415), the hang watchdog (R399), and stream refills (R223). -/
namespace Sys2Proof.Machine

/-- The next ring slot of a queue (R411). -/
def HQueue.slot (k : HQueue) : Nat := k.qbase.toNat + k.head % 2 ^ k.logn * 4096

/-- A device read of a record by physical address, under key id 0. -/
def ringAcc (st pa cid : Nat) : Acc :=
  { va := pa, pa := pa, key := 0, cmp := false, lt := 0, ub := false, cid := cid, from_ := st, via := .engine }

/-- The 16 granules of 256 bytes of a ring slot, each of which lies in one row and at one home (R234, R411). -/
def slotParts (pa : Nat) : List Nat := (upto 0 16).map (fun i => pa + 256 * i)

/-- A granule of a ring slot can be read: in DRAM, or in memory behind a window that permits the read (R414), and not in
the rows of R18. -/
def partReadable (s : State) (pa : Nat) : Bool :=
  match placeOf s.sdp pa with
  | .dram _ _ => (rawAddr s .read pa).isSome
  | .ext _ => (rawAddr s .read pa).isSome
  | .hole => false
  | .spad _ _ => false
  | .vreg _ _ => false
  | .tile _ _ => false
  | .latA _ _ => false
  | .latB _ _ => false
  | .creg _ _ => false
  | .col _ _ => false
  | .route _ _ => false

/-- The home of a granule of a ring slot. -/
def ringHome (s : State) (st cid pa : Nat) : Nat := homeStack s (ringAcc st pa cid) (placeOf s.sdp pa)

/-- The 4,096 bytes of a slot, granule by granule; none where a part of it is poisoned or its home cannot be reached,
which the routers log (R36, R411, R414). -/
def slotRead (st cid : Nat) : List Nat → State → Option Nat × State
  | [], s => (some 0, s)
  | pa :: l, s =>
    let acc := ringAcc st pa cid
    let s0 := logReach s st (ringHome s st cid pa)
    if reach s st (ringHome s st cid pa) ≠ .ok then (none, s0)
    else
      let v := homeRead s acc (placeOf s.sdp pa) 256
      if v.1.2 then (none, v.2)
      else
        let r := slotRead st cid l v.2
        (r.1.map (fun x => v.1.1 + 2 ^ 2048 * x), r.2)

/-- The read of a slot waits: a link holds the way to a granule's home, or a granule's row is locked (R33, R263). -/
def slotWaits (s : State) (st cid pa : Nat) : Bool :=
  (slotParts pa).any (fun a => decide (reach s st (ringHome s st cid a) = .held)) || rangeLocked s cid pa 4096

/-- A record is consumed: HEAD passes it (R410, R411). -/
def consume (s : State) (st q : Nat) : State :=
  s.modStack st (fun t => t.modQueue q (fun k =>
    let h := (k.head + 1) % 65536
    { k with head := h, tails := k.tails.filter (fun e => e.1 != h) }))

/-- A malformed record stops its queue and posts its address (R49, R414). -/
def malformed (s : State) (st q pa : Nat) : State :=
  s.modStack st (fun t => t.modQueue q (fun k => { k with st := .disabled, qerr := wd (2 ^ 63 + pa % 2 ^ 48) }))

/-- RING_RECORD_READ (R48, R49, R411 to R414). -/
def execEvRingRecordRead (st q : Nat) (s : State) : Out :=
  let k := (s.stack st).queue q
  let pa := k.slot
  if s.life ≠ .ready ∨ 16 ≤ st ∨ 16 ≤ q ∨ k.st ≠ .active ∨ k.tail = k.head ∨ !(s.ctx k.cid).installed ∨
      256 ≤ liveGraphs s st q then .next s
  else if !(slotParts pa).all (partReadable s) then .next (malformed (consume s st q) st q pa)
  else if slotWaits s st k.cid pa then .next s
  else
    let v := slotRead st k.cid (slotParts pa) s
    let time := (k.tails.head?.map (·.2)).getD s.time
    match v.1 with
    | none => .next (malformed (consume v.2 st q) st q pa)
    | some r =>
      if !recordOk r then .next (malformed (consume v.2 st q) st q pa)
      else if placeWaits s k.cid st r then .next s
      else .next (acceptGraph (consume v.2 st q) st q k.cid time r).1

/-- The fault of a node at its dispatch: cause of R386, engine 2 or 3, IDX 0, and the value that TVAL would hold
(R414). -/
def dispatchFault (s : State) (n eng cause : Nat) (va : W) : State := failNode s n (faultWord cause eng 0) va

/-- A Veld node is given a launch queue, or its descriptor fails it (R54, R414). A descriptor that fails the checks of
its fields has no address to report (log 18). -/
def dispatchVeld (s : State) (n : Nat) (x : Node) : State :=
  let v := (s.stack x.stack).veld
  match (upto 0 4).find? (fun q => (v.queue q).ops.isEmpty && (v.queue q).err.isNone) with
  | none => s
  | some q =>
    let r : Rq := { cid := x.cid, stack := x.stack, lvl := .n, who := 640 }
    if !launchOk x.pay then dispatchFault s n 2 cLAUNCH (Config.unstated s.ticks n)
    else match checkRegion s r x.pay with
      | .error e => dispatchFault s n 2 e.1 e.2
      | .ok subs =>
        let op := launchOp x.pay x.cid (x.stack * 4 + q) (some n) subs
        (s.modVeld x.stack (fun v => v.modQueue q (fun k => { k with ops := k.ops ++ [op] }))).setNode n
          { x with st := .running, waited := x.waitTime s }

/-- The copy that a fresh copy node asks for on a core (R413). -/
def nodeCopyOf (n : Nat) (x : Node) (core num : Nat) : CopyCtx :=
  { x := false, opno := num, cid := x.cid, core := core, hart := 0, seq := false, band := 0, node := some n, pc := 0
    sew := 8 * 2 ^ x.sewc, vl := x.vl, bar := none, desc := 0, body := x.pay, i1 := 0, i2 := 0, i3 := 0, boff := 0
    gran := 0, haddr := 0, paddr := 0, wm1 := 0, dir := false, sx := false, took := 0, fault := none }

/-- The first 128-byte range of a copy, on either side, that translates to a withheld subarray; the address of an unbacked
line names no row (R18, R363). -/
def namesWithheld (s : State) (c : CopyCtx) : Option W :=
  if s.sdp then none
  else
    let d := c.body
    let r := copyRq c.core c
    let at_ (base : W) (st : Nat → W) (i1 i2 i3 : Nat) : W := base + wd i1 * st 1 + wd i2 * st 2 + wd i3 * st 3
    let hit (k : AKind) (e : W × Nat) : Bool :=
      match vpTranslate s r k e.1 with
      | .error _ => false
      | .ok pa => match placeOf s.sdp pa with
        | .dram lin _ => withheld s.sdp lin && !(regionOf (s.ctx c.cid) e.1).any (·.ub)
        | _ => false
    (upto 0 (descN d 3)).findSome? (fun i3 => (upto 0 (descN d 2)).findSome? (fun i2 =>
      (upto 0 (descN d 1)).findSome? (fun i1 =>
        match (piecesOf (at_ (wd (bitsOf d 0 64)) (descSS d) i1 i2 i3) c.len).find? (hit .read) with
        | some e => some e.1
        | none => ((piecesOf (at_ (wd (bitsOf d 64 64)) (descDS d) i1 i2 i3) c.len).find? (hit .write)).map (·.1))))

/-- A copy node takes the copy sequencer of a core: a fresh one is accepted under the next number of TLC3 there, one
with a cursor goes on under its own (R260, R315). -/
def takeCopy (s : State) (n : Nat) (x : Node) (core : Nat) : State :=
  let run (s : State) (c : CopyCtx) : State := s.setNode n { x with st := .running, waited := x.waitTime s, cursor := some c }
  match x.cursor with
  | some c => (run s c).modCore core (fun k => { k with nodeCopy := some c })
  | none =>
    let c := nodeCopyOf n x core 0
    if !descOk x.pay then dispatchFault s n 3 cILL (Config.unstated s.ticks n)
    else match namesWithheld s c with
      | some va => dispatchFault s n 3 cPERM va
      | none =>
        let key := tlKey x.cid core 3
        let s0 := s.modTl key Timeline.accept
        let c1 := { c with opno := (s0.tl key).acc }
        let s1 := run s0 c1
        if c1.isOver then doneCopy s1 c1 else s1.modCore core (fun k => { k with nodeCopy := some c1 })

/-- The copy sequencer of a core can take a node: no resident crew has forked it, it runs no node, and its engine has
one of its four places free (R54, R315). -/
def copyFree (s : State) (core : Nat) : Bool :=
  let k := s.core core
  decide (k.cseq.phase = .free) && k.nodeCopy.isNone && decide (k.copies.length < 4)

/-- The core of a stack whose running copy node gives way to a READY one of higher effective priority: the node with
the greatest number, ties to the youngest stamp (R56, log 43). -/
def copyVictim (s : State) (x : Node) : Option Nat :=
  let cand := (upto (4 * x.stack) 4).filterMap (fun c =>
    match (s.core c).nodeCopy with
    | none => none
    | some y => match y.node.bind s.node? with
      | none => none
      | some m => if effPrio s x < effPrio s m then some (c, m) else none)
  (cand.foldl (fun (best : Option (Nat × Node)) e => match best with
    | none => some e
    | some b => if nodeBefore s b.2 e.2 then some e else some b) none).map (·.1)

/-- Dispatch of a copy node (R54, R56). -/
def dispatchCopy (s : State) (n : Nat) (x : Node) : State :=
  match (upto (4 * x.stack) 4).find? (copyFree s) with
  | some c => takeCopy s n x c
  | none =>
    match copyVictim s x with
    | none => s
    | some c =>
      let s1 := suspendCopyNode s c
      if copyFree s1 c then takeCopy s1 n x c else s1

/-- A band node that fits is placed, or its restore begins (R54, R67). -/
def dispatchBand (s : State) (n : Nat) (x : Node) : State :=
  match x.band with
  | none => placeBand s n x
  | some bi => match s.band? bi with
    | none => s
    | some b => startRestore s n x bi b

/-- One node of the ready pool; the flag says that a band ahead did not fit (R54), or waits for locked rows of the table
that its placement loads (R246, R263). -/
def dispatchNode (acc : State × Bool) (n : Nat) : State × Bool :=
  let (s, blocked) := acc
  match s.node? n with
  | none => acc
  | some x =>
    if x.st ≠ .ready then acc
    else match x.kind with
      | .band =>
        if blocked then acc
        else if nodeFits s n x then (if vptLocked s x.cid then (s, true) else (dispatchBand s n x, false))
        else (considerPreempt s n x, true)
      | .veld => (dispatchVeld s n x, blocked)
      | .copy => (dispatchCopy s n x, blocked)

/-- A node can be dispatched: the pass of its stack would set it running. -/
def canGo (s : State) (n : Nat) (x : Node) : Bool :=
  decide ((((readyPool s x.stack).map (·.1)).foldl dispatchNode (s, false)).1.nst n = .running)

/-- An older READY node of the same queue at the same effective priority, placed on another stack, can be dispatched: it
goes first (R53, R57). -/
def olderFirst (s : State) (n : Nat) : Bool :=
  let queue (x : Node) : Option (Nat × Nat) := (s.graph? x.graph).map (fun g => (g.stack, g.queue))
  match s.node? n with
  | none => false
  | some x => s.nodes.any (fun e =>
      decide (e.2.st = .ready) && e.2.stack != x.stack && queue e.2 == queue x && effPrio s e.2 == effPrio s x &&
        stampLt e.2.stamp x.stamp && canGo s e.1 e.2)

/-- The nodes of a ready pool in order, up to one that an older node of its queue on another stack precedes (R54,
R57). -/
def dispatchAll : List Nat → State × Bool → State
  | [], acc => acc.1
  | n :: l, acc => if olderFirst acc.1 n then acc.1 else dispatchAll l (dispatchNode acc n)

/-- DISPATCH (R54): what a lane reclaiming on the stack still owes passes first (R66). -/
def execEvDispatch (st : Nat) (s : State) : Out :=
  if s.life ≠ .ready ∨ 16 ≤ st then .next s
  else
    let s1 := ((s.bands.filter (fun e => e.2.stack == st && e.2.incoming.isSome)).map (·.1)).foldl passSlices s
    let s2 := (s1.arriving.filter (fun e => (s1.node? e.1).all (fun x => x.stack == st))).foldl arrive s1
    .next (dispatchAll ((readyPool s2 st).map (·.1)) (s2, false))

/-- NODE_AGING_STEP (R54): 2 ms of ready waiting of a standard or bulk node are counted; its effective priority follows
from the whole waiting time. -/
def execEvNodeAgingStep (nd : Nat) (s : State) : Out :=
  match s.node? nd with
  | none => .next s
  | some x =>
    if x.st ≠ .ready ∨ x.prio < 2 ∨ s.clock < x.readyAt + 2000000 then .next s
    else .next (s.setNode nd { x with readyAt := x.readyAt + 2000000, waited := x.waited + 2000000 })

/-- A timeline has reached its final value (R264): every number has completed, or it is in the error state. -/
def Timeline.settled (t : Timeline) : Bool := t.cnt == t.acc || t.err.isSome

/-- The timelines that a band node used (R260, R264): those of its context on its cores. -/
def nodeTimelines (x : Node) : List Nat :=
  match x.kind with
  | .band => if x.band.isSome then (upto 0 x.harts.length).flatMap (fun i => (upto 0 3).map (tlKey x.cid (x.stack * 4 + i))) else []
  | .veld => []
  | .copy => []

/-- The timelines that a node used have reached their final values; that of a copy node, TLC3 of the core that first accepted
it, once its counter has reached the node's number or it is in the error state (R51, R264, R315). -/
def nodeSettled (s : State) (x : Node) : Bool :=
  (nodeTimelines x).all (fun k => (s.tl k).settled) &&
    match x.cursor with
    | none => true
    | some c =>
      let t := s.tl (tlKey x.cid c.core 3)
      t.err.isSome || !t.done.contains c.opno

/-- No store of an ended hart of a graph's bands is on its way (R264). -/
def storesDone (s : State) (g : Graph) : Bool :=
  let hs := g.nodes.flatMap (fun n => match (s.node? n).bind (·.band) with
    | none => []
    | some bi => match s.band? bi with
      | none => []
      | some b => b.crews.flatten)
  !(s.reqs.any (fun e => e.2.acc.cid == g.cid && hs.contains e.2.src)) &&
    !(s.refusals.any (fun e => e.2.cid == g.cid && hs.contains e.2.hart))

/-- Everything but the flush that a completion waits for (R51, R264). -/
def graphReady (s : State) (g : Graph) : Bool :=
  !g.complete && g.nodes.all (fun n => (s.nst n).final) && storesDone s g &&
    g.nodes.all (fun n => match s.node? n with
      | none => true
      | some x => nodeSettled s x)

/-- The nodes of a graph in index order that stand in a state. -/
def nodesIn (s : State) (g : Graph) (st : NState) : List Nat :=
  (upto 0 g.nodes.length).filter (fun i => s.nst (g.nodes.getD i 0) = st)

/-- The 32 bytes of a completion record (R415). -/
def complWord (s : State) (g : Graph) : Nat :=
  let failed := nodesIn s g .failed
  let first := failed.head?.bind (fun i => s.node? (g.nodes.getD i 0))
  let status := 2 ^ 63 + b01 (!failed.isEmpty) * 2 ^ 62 + b01 g.cend * 2 ^ 61 +
    b01 (!(nodesIn s g .cancelled).isEmpty) * 2 ^ 60 + (failed.headD 0xFFFF) % 65536 * 2 ^ 32 + g.seq % 65536 * 65536 +
    (g.exit.getD 0) % 65536
  let fw := (first.map (·.fword)).getD 0
  let va := (first.map (·.fva)).getD 0
  status + 2 ^ 64 * fw.toNat + 2 ^ 128 * va.toNat + 2 ^ 192 * (s.timeAt g.stack).toNat

/-- The translated access and place of a completion record; none where COMPL faults at its own stack (R415). -/
def complAcc (s : State) (g : Graph) : Option (Acc × Place) :=
  let r : Rq := { cid := g.cid, stack := g.stack, lvl := .n, who := 640 }
  if g.compl.toNat % 32 ≠ 0 then none
  else match (resolve s r .engine .write g.compl 32).1 with
    | .error _ => none
    | .ok (acc, p) => if acc.lt ≠ 0 ∨ acc.ub ∨ p.chip then none else some (acc, p)

/-- Where a completion record goes; none where COMPL faults, or where its home cannot be reached or refuses it (R415). -/
def complPlace (s : State) (g : Graph) : Option (Acc × Place) :=
  match complAcc s g with
  | none => none
  | some (acc, p) =>
    if reach s g.stack (homeFor s acc p true) = .unreached ∨
        !(homeWrite s acc p 32 0 640 (covOf (homeAddr acc p) 32)).2.isEmpty then none
    else some (acc, p)

/-- The way of a completion record is held by a link (R33), or its row is locked (R263). -/
def complHeld (s : State) (g : Graph) : Bool :=
  match complPlace s g with
  | none => false
  | some (acc, p) => g.compl != 0 && (decide (reach s g.stack (homeFor s acc p true) = .held) ||
      (isDram acc p && rowLocked s g.cid (homeAddr acc p)) ||
      (match p with
        | .ext a => rawLocked s g.cid (counterAt s g.cid a)
        | _ => false))

/-- The completion record is written, or COMPL goes to QERR (R415); a routing error on its way is logged (R36). -/
def writeCompl (s0 : State) (g : Graph) : State :=
  let s := match complAcc s0 g with
    | none => s0
    | some (acc, p) => logReach s0 g.stack (homeFor s0 acc p true)
  if g.compl = 0 then s0
  else match complPlace s g with
    | none => s.modStack g.stack (fun t => t.modQueue g.queue (fun k => { k with qerr := wd (2 ^ 63 + fld g.compl 0 48) }))
    | some (acc, p) => (homeWrite s acc p 32 (complWord s g) 640 (covOf (homeAddr acc p) 32)).1

/-- What the flush of a graph's completion notes: every stack's replica of the context's lines (R264, R362). -/
def flushNotes (s : State) (cid : Nat) : List (Nat × Nat × Nat) := (upto 0 16).flatMap (noteLines s cid)

/-- GRAPH_COMPLETION (R51, R264, R415): the flush begins once all else is done; when every replica holds what it noted
the record is written and the graph is complete. -/
def execEvGraphCompletion (g : Nat) (s : State) : Out :=
  match s.graph? g with
  | none => .next s
  | some x =>
    if s.life ≠ .ready ∨ !graphReady s x then .next s
    else
      let note := match x.flush with
        | none => flushNotes s x.cid
        | some l => l
      if !flushed s note then .next (s.setGraph g { x with flush := some note })
      else if complHeld s x then .next (s.setGraph g { x with flush := some note })
      else .next (settleQueue ((writeCompl s x).setGraph g { x with flush := some note, complete := true }) x.stack x.queue)

/-- HANG_WATCHDOG (R399): for the period of the context no hart of the band retired an instruction and no engine of it
moved; the context is removed with cause 0x31. A band that a pre-emption is stopping is watched until it has stopped. -/
def execEvHangWatchdog (bd : Nat) (s : State) : Out :=
  match s.band? bd with
  | none => .next s
  | some b =>
    let c := s.ctx b.cid
    let period := (if c.wdog = 0 then 100000 else c.wdog) * 1000
    if (b.phase ≠ .running ∧ b.phase ≠ .stopping) ∨ !c.installed ∨ (s.stack b.stack).halted ∨
        (bandLive s bd b).any (fun h => decide (s.clock < (s.hart h).retiredAt + period)) then .next s
    else .next (removeContext s b.cid 0x31 0)

/-- STREAM_REFILL (R222, R223): the stream unit of a hart fetches the elements of one strip of the widest VL from the
cursor that have not arrived; a fault is recorded with its element. While another hart of the context waits in SPTSW it
fetches nothing (R180). -/
def execEvStreamRefill (h grp : Nat) (s : State) : Out :=
  match ((s.hart h).streams.find? (fun e => e.1 == grp)).map (·.2) with
  | none => .next s
  | some t =>
    if !hartRuns s h || sptWaits s h then .next s
    else
      let n := Nat.min ((s.hart h).cur * 512 * 2 ^ t.lm / 2 ^ t.sew) (t.len - t.cursor)
      let todo := (upto t.cursor n).filter (fun i => !t.fetched.any (fun e => e.1 == i))
      let body : X Unit := do
        let r ← myRq
        eachOf (fun i => do
          let e ← fetchElem r t i
          modify (fun s => s.modHart h (fun x => { x with streams := x.streams.map (fun p =>
            if p.1 = grp then (p.1, { p.2 with fetched := tins (tdel p.2.fetched i) i e }) else p) }))) todo
      match body.run { s with agent := .queue h } with
      | .ok _ u => .next { u with agent := s.agent }
      | .error (.fatal c v) u => .next (removeContext { u with agent := s.agent } (s.hart h).cid c v)
      | .error (.fault f) _ => .fault f
      | .error (.trap _ _ _) _ => .next s
      | .error .stall t => .next (keepAsks s t)
      | .error (.cut _) _ => .next s

end Sys2Proof.Machine
end

