-- ==== Sys2Proof/Machine/Exchange.lean ====
section
/-! DEFINITION. The exchange of lattice lines between stacks (R354 to R357, R362). -/
namespace Sys2Proof.Machine

/-- PERIOD in ns: a value below 200 acts as 200 (R355). -/
def periodOf (x : W) : Nat := Nat.max 200 (fld x 16 16)

/-- Some LFLUSH waits, or a graph whose nodes are all final flushes: rounds run back to back (R362, R264). -/
def forcedRounds (s : State) : Bool :=
  s.harts.any (fun h => match h.2.wait with
    | none => false
    | some w => w.what == .lflush) ||
  s.graphs.any (fun g => !g.2.complete && g.2.nodes.all (fun n => (s.nst n).final))

/-- The access under which the engines reach a replica of a line (R356). -/
def XLine.acc (x : XLine) : Acc :=
  { va := 0, pa := x.line * 128, key := 0, cmp := false, lt := x.lt, ub := false, cid := x.cid
    from_ := x.line * 128 / 2 ^ 36, via := .engine }

/-- The cells of a line. -/
def lineCells (lt : Nat) : List Nat := upto 0 (128 / cellBytes lt)

/-- The cell among some of a line that goes next: any of them (R356, log 81). -/
def nextCell (s : State) (line : Nat) (l : List Nat) : Nat :=
  l.getD (Config.exchOrder s.ticks (line * 128 + l.length) % l.length) 0

/-- A cell of a line is read at its sender, as one step (R354, R356). -/
def readCell (x : XLine) (k : Nat) (s : State) : XLine × State :=
  let n := cellBytes x.lt
  let a := x.src * 128 + k * n
  let s1 := (partsOf a n).foldl settleSoft s
  ({ x with data := x.data + s1.natAt a n * 2 ^ (8 * n * k), unread := x.unread.filter (· != k)
            bad := x.bad ++ ((partsOf a n).filter s1.poisoned).map (fun p => p - 8 * x.src)
            opens := x.opens ++ ((partsOf a n).filter s1.isLost).map (fun p => p - 8 * x.src) }, s1)

/-- Up to as many more cells are read. -/
def readCells : Nat → XLine → State → XLine × State
  | 0, x, s => (x, s)
  | n + 1, x, s =>
    if x.unread = [] then (x, s)
    else
      let y := readCell x (nextCell s x.src x.unread) s
      readCells n y.1 y.2

/-- The units of a received cell joined into the receiving one (R350, R356). -/
def joinCell (t n x y : Nat) : Nat :=
  let u := unitBytes t
  leNat ((upto 0 (n / u)).flatMap (fun i =>
    leBytes u (latJoin t (x / 2 ^ (8 * u * i) % 2 ^ (8 * u)) (y / 2 ^ (8 * u * i) % 2 ^ (8 * u)))))

/-- A cell of a line arrives and is joined, as one step: a poisoned part poisons, an open one leaves its codeword open, and a
line that rises takes K (R349, R354, R356). -/
def receiveCell (x : XLine) (k : Nat) (s : State) : XLine × State :=
  let n := cellBytes x.lt
  let a := x.line * 128 + k * n
  let s1 := (partsOf a n).foldl settleSoft s
  let new := joinCell x.lt n (s1.natAt a n) (x.data / 2 ^ (8 * n * k) % 2 ^ (8 * n))
  let s2 := latWrite s1 x.acc a n new 640 (covOf a n)
  let spoil (s : State) (p : Nat) : State := reopen (s.spoil p (x.opens.contains (p - 8 * x.line) || s.isLost p)) p
  ({ x with unjoined := x.unjoined.filter (· != k) },
   ((partsOf a n).filter (fun p => x.bad.contains (p - 8 * x.line))).foldl spoil s2)

/-- Up to as many more cells are joined. -/
def receiveCells : Nat → XLine → State → XLine × State
  | 0, x, s => (x, s)
  | n + 1, x, s =>
    if x.unjoined = [] then (x, s)
    else
      let y := receiveCell x (nextCell s x.line x.unjoined) s
      receiveCells n y.1 y.2

/-- How many cells of a line go in one step: a free number, at least one (log 81). -/
def cellsNow (s : State) (x : XLine) : Nat := 1 + Config.exchCells s.ticks x.line % (128 / cellBytes x.lt)

/-- A stack is to send a line to its partners and lowers its TTL by 1; the line is read later in the round (R356, log
81). -/
def sendLine (mode r : Nat) (s : State) (e : Nat × Nat × Nat × Nat) : State :=
  let (line, ttl, lt, cid) := e
  let st := line * 128 / 2 ^ 36
  let x (t : Nat) : XLine :=
    { line := t * (2 ^ 36 / 128) + line % (2 ^ 36 / 128), data := 0, bad := [], opens := [], unread := lineCells lt
      unjoined := lineCells lt, entry := 0, stamp := 0, src := line, ttl := ttl, lt := lt, cid := cid }
  let send (s : State) (t : Nat) : State := { s with xlines := s.xlines ++ [(s.fresh, x t)], fresh := s.fresh + 1 }
  let s1 := (partners mode st r).foldl send s
  { s1 with xsent := line :: s1.xsent
            ttl := if ttl = 1 then tdel s1.ttl line else tins (tdel s1.ttl line) line (ttl - 1, lt, cid) }

/-- Some lines with TTL above 0 are sent in a round. -/
def sendLines (r : Nat) (s : State) (l : List (Nat × Nat × Nat × Nat)) : State :=
  l.foldl (sendLine (fld s.xschedNow 0 2) r) s

/-- A written XSCHED takes effect at the start of a round: r_B and B move, and under a new MODE every line with TTL above
0 takes its K (R355, R356). -/
def applyXsched (s : State) : State :=
  if s.xsched = s.xschedNow then s
  else
    let s1 := { s with xschedNow := s.xsched, roundBase := s.round, roundTime := s.time }
    if fld s.xsched 0 2 = fld s.xschedNow 0 2 then s1
    else { s1 with ttl := s1.ttl.map (fun e => (e.1, s1.exchK, e.2.2)) }

/-- EXCHANGE_ROUND (R356): the next round starts once the one before it has finished and its time has come, or at once
where a flush waits; each stack is to send every line with TTL above 0. Until then the round before goes on, and may carry
lines that have risen since it started (R357, log 81). -/
def execEvExchangeRound (s : State) : Out :=
  let due := s.roundTime + (s.round - s.roundBase) * periodOf s.xschedNow
  if !s.xlines.isEmpty ∨ (s.time < due ∧ !forcedRounds s) then
    if s.round = 0 then .next s
    else .next (sendLines (s.round - 1) s (s.ttl.filter (fun e => !s.xsent.contains e.1 && Config.exchLate s.ticks e.1)))
  else
    let s1 := { applyXsched s with xsent := [] }
    .next { sendLines s1.round s1 s1.ttl with round := s.round + 1 }

/-- A line that cannot be delivered leaves the TTL of its sender as it was (R356). -/
def returnLine (s : State) (x : XLine) : State :=
  let now := (tget (0, x.lt, x.cid) s.ttl x.src).1
  { s with ttl := tins (tdel s.ttl x.src) x.src (Nat.max now x.ttl, x.lt, x.cid) }

/-- An earlier line between the same stacks under the same route value has not arrived (R37): it was read, and so injected,
before. -/
def lineBehind (s : State) (x : XLine) : Bool :=
  s.xlines.any (fun e => e.2.sent && decide (e.2.stamp < x.stamp) && e.2.ends == x.ends && e.2.entry == x.entry)

/-- The way of a line under the entry value that was copied when it was injected (R35, R37). -/
def XLine.way (s : State) (x : XLine) : Trip := tripBy s x.ends.1 x.ends.2 3 x.entry

/-- Cells of a line are read; with the last of them the line is on its way under the route entry in force (R35, R37,
R356). -/
def sendCells (s : State) (i : Nat) (x : XLine) : State :=
  let st := x.src * 128 / 2 ^ 36
  let r := readCells (cellsNow s x) x s
  let y := if r.1.unread = [] then
      { r.1 with entry := ((s.stack st).route st (x.line * 128 / 2 ^ 36)).toNat, stamp := r.2.fresh } else r.1
  { r.2 with xlines := tins (tdel r.2.xlines i) i y, fresh := if r.1.unread = [] then r.2.fresh + 1 else r.2.fresh }

/-- Cells of a line that arrives are joined, and the line is gone with its last one. -/
def takeCells (s : State) (i : Nat) (x : XLine) : State :=
  let y := receiveCells (cellsNow s x) x s
  { y.2 with xlines := if y.1.unjoined = [] then tdel y.2.xlines i else tins (tdel y.2.xlines i) i y.1 }

/-- EXCHANGE_LINE_RECEIVE (R356): the engines go on with a line: the sender reads more of its cells, or where it has
read all the receiver joins more of those that have come over VC 3; or the way is gone and the line cannot be delivered. A
routing error on the way is logged (R36). -/
def execEvExchangeLineReceive (i : Nat) (deliver : Bool) (s : State) : Out :=
  match (s.xlines.find? (fun e => e.1 == i)).map (·.2) with
  | none => .next s
  | some x =>
    let lost : State := returnLine (logWay { s with xlines := tdel s.xlines i } (x.way s)) x
    if x.unread ≠ [] then .next (sendCells s i x)
    else match x.way s with
      | .blocked => .next s
      | .lost => if deliver then .next s else .next lost
      | .error _ => if deliver then .next s else .next lost
      | .arrived t =>
        if t ≠ x.ends.2 then (if deliver then .next s else .next lost)
        else if deliver && !lineBehind s x then .next (takeCells s i x)
        else .next s

end Sys2Proof.Machine
end

