-- ==== Sys2Proof/Machine/Graphs.lean ====
section
/-! DEFINITION. GLAUNCH (R48, R49, R310, R412 to R414). -/
namespace Sys2Proof.Machine

/-- Reads a graph record through the ENGINE port: its header, then the whole where the header is well formed (R310,
R412). No alignment of S(A) is asked for (log 102). -/
def readRecord (r : Rq) (va : W) : X Nat := do
  let h ← loadUnit r .engine .any 1 va 64
  if headerOk h then loadUnit r .engine .any 1 va (recBytes h) else return h

/-- What GLAUNCH writes to its destination (R310). -/
def launchWord (refused : Bool) (st q seq why : Nat) : W :=
  wd (b01 refused * 2 ^ 63 + st * 2 ^ 40 + q * 2 ^ 36 + seq * 2 ^ 16 + why)

/-- Why a queue refuses a graph; 0 where it accepts (R310, R411). -/
def whyRefused (s : State) (st q rec_ : Nat) : Nat :=
  let k := (s.stack st).queue q
  if k.st = .drain ∨ k.st = .disabled then 1
  else if !recordOk rec_ then 2
  else if 256 ≤ liveGraphs s st q then 3
  else 0

/-- GLAUNCH (R310): a release, so that an accepted one waits for the hart's earlier accesses. -/
def execGlaunch (d : SReg) (q : BitVec 4) (a : SReg) (s : State) : Out :=
  scalarX (.glaunch d q a) (do
    let cid ← myCid
    let st := coreStack (← myCore)
    if (((← get).stack st).queue q.toNat).cid ≠ cid then trap cPERM (wd q.toNat)
    needAll
    let va ← rd a
    let r ← myRq
    let x ← readRecord r va
    let t ← get
    let why := whyRefused t st q.toNat x
    if why = 0 then
      if placeWaits t cid st x then stall
      let g := acceptGraph t st q.toNat cid t.time x
      set g.1
      wr d (launchWord false st q.toNat g.2 0)
    else wr d (launchWord true st q.toNat 0 why)) s

end Sys2Proof.Machine
end

