-- ==== Sys2Proof/Machine/LoadStore.lean ====
section
/-! DEFINITION. Scalar loads, stores and prefetch (R153 to R160). -/
namespace Sys2Proof.Machine

/-- A load of `n` bytes into D, extended by `ext` (R153, R155). -/
def loadX (i : Instr) (n : Nat) (ext : Nat → W) (d a : SReg) (off : W) (s : State) : Out :=
  scalarX i (do
    let x ← scalarLoad ((← rd a) + off) n
    wr d (ext x)) s

/-- LDQ: bytes 7:0 into D, 15:8 into D + 1 (R153, R154). -/
def loadQX (i : Instr) (d a : SReg) (off : W) (s : State) : Out :=
  scalarX i (do
    let x ← scalarLoad ((← rd a) + off) 16
    wrPair d x) s

/-- A store of the low `n` bytes of D (R153, R155). -/
def storeX (i : Instr) (n : Nat) (d a : SReg) (off : W) (s : State) : Out :=
  scalarX i (do
    let x ← rd d
    scalarStore ((← rd a) + off) n (x.toNat % 2 ^ (8 * n))) s

/-- STQ: D at bytes 7:0 and D + 1 at bytes 15:8; with D = 0 the low doubleword is zero (R153, R154). -/
def storeQX (i : Instr) (d a : SReg) (off : W) (s : State) : Out :=
  scalarX i (do
    let x ← rdPair d
    scalarStore ((← rd a) + off) 16 x) s

/-- LDB with a T2 tail (R153, R155). -/
def execLdbTl2 (d a : SReg) (off : BitVec 10) (s : State) : Out := loadX (.ldbTl2 d a off) 1 (sext 8) d a (imm10 off) s
/-- LDB with a T3 tail (R153, R155). -/
def execLdbTl3 (d a : SReg) (off : BitVec 32) (s : State) : Out := loadX (.ldbTl3 d a off) 1 (sext 8) d a (imm32 off) s
/-- LDBZ with a T2 tail (R153, R155). -/
def execLdbzTl2 (d a : SReg) (off : BitVec 10) (s : State) : Out := loadX (.ldbzTl2 d a off) 1 wd d a (imm10 off) s
/-- LDBZ with a T3 tail (R153, R155). -/
def execLdbzTl3 (d a : SReg) (off : BitVec 32) (s : State) : Out := loadX (.ldbzTl3 d a off) 1 wd d a (imm32 off) s
/-- LDH with a T2 tail (R153, R155). -/
def execLdhTl2 (d a : SReg) (off : BitVec 10) (s : State) : Out := loadX (.ldhTl2 d a off) 2 (sext 16) d a (imm10 off) s
/-- LDH with a T3 tail (R153, R155). -/
def execLdhTl3 (d a : SReg) (off : BitVec 32) (s : State) : Out := loadX (.ldhTl3 d a off) 2 (sext 16) d a (imm32 off) s
/-- LDHZ with a T2 tail (R153, R155). -/
def execLdhzTl2 (d a : SReg) (off : BitVec 10) (s : State) : Out := loadX (.ldhzTl2 d a off) 2 wd d a (imm10 off) s
/-- LDHZ with a T3 tail (R153, R155). -/
def execLdhzTl3 (d a : SReg) (off : BitVec 32) (s : State) : Out := loadX (.ldhzTl3 d a off) 2 wd d a (imm32 off) s
/-- LDW with a T2 tail (R153, R155). -/
def execLdwTl2 (d a : SReg) (off : BitVec 10) (s : State) : Out := loadX (.ldwTl2 d a off) 4 (sext 32) d a (imm10 off) s
/-- LDW with a T3 tail (R153, R155). -/
def execLdwTl3 (d a : SReg) (off : BitVec 32) (s : State) : Out := loadX (.ldwTl3 d a off) 4 (sext 32) d a (imm32 off) s
/-- LDWZ with a T2 tail (R153, R155). -/
def execLdwzTl2 (d a : SReg) (off : BitVec 10) (s : State) : Out := loadX (.ldwzTl2 d a off) 4 wd d a (imm10 off) s
/-- LDWZ with a T3 tail (R153, R155). -/
def execLdwzTl3 (d a : SReg) (off : BitVec 32) (s : State) : Out := loadX (.ldwzTl3 d a off) 4 wd d a (imm32 off) s
/-- LDD with a T2 tail (R153, R155). -/
def execLddTl2 (d a : SReg) (off : BitVec 10) (s : State) : Out := loadX (.lddTl2 d a off) 8 wd d a (imm10 off) s
/-- LDD with a T3 tail (R153, R155). -/
def execLddTl3 (d a : SReg) (off : BitVec 32) (s : State) : Out := loadX (.lddTl3 d a off) 8 wd d a (imm32 off) s
/-- LDQ with a T2 tail (R153, R154). -/
def execLdqTl2 (d a : SReg) (off : BitVec 10) (s : State) : Out := loadQX (.ldqTl2 d a off) d a (imm10 off) s
/-- LDQ with a T3 tail (R153, R154). -/
def execLdqTl3 (d a : SReg) (off : BitVec 32) (s : State) : Out := loadQX (.ldqTl3 d a off) d a (imm32 off) s
/-- STB with a T2 tail (R153, R155). -/
def execStbTl2 (d a : SReg) (off : BitVec 10) (s : State) : Out := storeX (.stbTl2 d a off) 1 d a (imm10 off) s
/-- STB with a T3 tail (R153, R155). -/
def execStbTl3 (d a : SReg) (off : BitVec 32) (s : State) : Out := storeX (.stbTl3 d a off) 1 d a (imm32 off) s
/-- STH with a T2 tail (R153, R155). -/
def execSthTl2 (d a : SReg) (off : BitVec 10) (s : State) : Out := storeX (.sthTl2 d a off) 2 d a (imm10 off) s
/-- STH with a T3 tail (R153, R155). -/
def execSthTl3 (d a : SReg) (off : BitVec 32) (s : State) : Out := storeX (.sthTl3 d a off) 2 d a (imm32 off) s
/-- STW with a T2 tail (R153, R155). -/
def execStwTl2 (d a : SReg) (off : BitVec 10) (s : State) : Out := storeX (.stwTl2 d a off) 4 d a (imm10 off) s
/-- STW with a T3 tail (R153, R155). -/
def execStwTl3 (d a : SReg) (off : BitVec 32) (s : State) : Out := storeX (.stwTl3 d a off) 4 d a (imm32 off) s
/-- STD with a T2 tail (R153, R155). -/
def execStdTl2 (d a : SReg) (off : BitVec 10) (s : State) : Out := storeX (.stdTl2 d a off) 8 d a (imm10 off) s
/-- STD with a T3 tail (R153, R155). -/
def execStdTl3 (d a : SReg) (off : BitVec 32) (s : State) : Out := storeX (.stdTl3 d a off) 8 d a (imm32 off) s
/-- STQ with a T2 tail (R153, R154). -/
def execStqTl2 (d a : SReg) (off : BitVec 10) (s : State) : Out := storeQX (.stqTl2 d a off) d a (imm10 off) s
/-- STQ with a T3 tail (R153, R154). -/
def execStqTl3 (d a : SReg) (off : BitVec 32) (s : State) : Out := storeQX (.stqTl3 d a off) d a (imm32 off) s
/-- PREF with a T2 tail: no state that programs can see changes (R157). -/
def execPrefTl2 (h : BitVec 6) (a : SReg) (off : BitVec 10) (s : State) : Out := scalarX (.prefTl2 h a off) (pure ()) s
/-- PREF with a T3 tail: no state that programs can see changes (R157). -/
def execPrefTl3 (h : BitVec 6) (a : SReg) (off : BitVec 32) (s : State) : Out := scalarX (.prefTl3 h a off) (pure ()) s
/-- LDA: a load that is also an acquire; accesses perform in program order here (R159, R160, log 22). -/
def execLda (d : SReg) (sc : Scope) (sz : Bool) (a : SReg) (off : BitVec 10) (s : State) : Out :=
  loadX (.lda d sc sz a off) (if sz then 8 else 4) (if sz then wd else sext 32) d a (imm10 off) s
/-- STL: a store that is also a release (R159, R160, log 22). -/
def execStl (d : SReg) (sc : Scope) (sz : Bool) (a : SReg) (off : BitVec 10) (s : State) : Out :=
  scalarX (.stl d sc sz a off) (do
    let x ← rd d
    needPosted
    scalarStore ((← rd a) + imm10 off) (if sz then 8 else 4) (x.toNat % 2 ^ (if sz then 64 else 32))) s

end Sys2Proof.Machine
end

