-- ==== Sys2Proof/Machine/Mask.lean ====
section
/-! DEFINITION. The mask instructions (R208). -/
namespace Sys2Proof.Machine

/-- A mask instruction that writes a mask: `f` gives bit i (R187, R208). -/
def maskX (i : Instr) (d : KReg) (f : VCtx → Nat → X Bool) (s : State) : Out :=
  vecX i (do
    let c ← vctx
    vstart i c [] false false true []
    elements c 0 (fun j => do
      let b ← f c j
      setKbitOf c d j b)) s

/-- KAND (R208). -/
def execKand (d a b : KReg) (s : State) : Out :=
  maskX (.kand d a b) d (fun c j => do return (← kbitOf c a j) && (← kbitOf c b j)) s
/-- KOR (R208). -/
def execKor (d a b : KReg) (s : State) : Out :=
  maskX (.kor d a b) d (fun c j => do return (← kbitOf c a j) || (← kbitOf c b j)) s
/-- KXOR (R208). -/
def execKxor (d a b : KReg) (s : State) : Out :=
  maskX (.kxor d a b) d (fun c j => do return (← kbitOf c a j) != (← kbitOf c b j)) s
/-- KNOT (R208). -/
def execKnot (d a : KReg) (s : State) : Out := maskX (.knot d a) d (fun c j => do return !(← kbitOf c a j)) s
/-- KSET (R208). -/
def execKset (d : KReg) (a : SReg) (s : State) : Out :=
  maskX (.kset d a) d (fun _ j => do return decide (j < (← rd a).toNat)) s

/-- The bits of a mask below VL (R208). -/
def maskBits (c : VCtx) (a : KReg) : Nat → Nat → X (List Bool)
  | _, 0 => pure []
  | i, n + 1 => do
    let b ← kbitOf c a i
    let l ← maskBits c a (i + 1) n
    return b :: l

/-- A mask instruction that writes a scalar register when it completes (R191, R208). -/
def maskScalarX (i : Instr) (d : SReg) (a : KReg) (f : List Bool → W) (s : State) : Out :=
  vecX i (do
    let c ← vctx
    needQueue
    vstart i c [] false false (a.val != 0) []
    let l ← maskBits c a 0 c.vl
    wr d (f l)) s

/-- KPOPC (R208). -/
def execKpopc (d : SReg) (a : KReg) (s : State) : Out :=
  maskScalarX (.kpopc d a) d a (fun l => wd (l.filter id).length) s
/-- KFIRST: all ones when no bit is set (R208). -/
def execKfirst (d : SReg) (a : KReg) (s : State) : Out :=
  maskScalarX (.kfirst d a) d a (fun l =>
    match l.findIdx? id with
    | none => BitVec.allOnes 64
    | some j => wd j) s

end Sys2Proof.Machine
end

