-- ==== Sys2Proof/Machine/VecMem.lean ====
section
/-! DEFINITION. The vector memory instructions (R209 to R220). -/
namespace Sys2Proof.Machine

/-- Where the elements of a memory instruction lie (R210). -/
inductive VLayout where
  | packed | strided | fields | indexed
deriving DecidableEq, Repr

/-- The storage format in force: the instruction's own, or MFC's (R108, R209). -/
def memFmt (c : VCtx) (store : Bool) (f : FmtSel) : Nat :=
  match f with
  | some x => x.toNat
  | none => if store then c.sfmt else c.lfmt

/-- Only SEW 16 and 32 go with a float or block format (R107). -/
def fmtFits (c : VCtx) (fmt : Nat) : Bool := fmtInt fmt || !c.noFloat

/-- Bytes that an access to one element touches (R115, R118). -/
def elemBytes (fmt : Nat) : Nat := if fmtBits fmt < 8 then 1 else fmtBits fmt / 8

/-- A field of an element: its address, the bit where a sub-byte element starts, and its register group. -/
structure Field where
  va : W
  bit : Nat
  grp : Grp
deriving DecidableEq, Repr

/-- The register groups of the fields of an instruction (R210). -/
def fieldGroups (c : VCtx) (l : VLayout) (d : VReg) (x : VMem) : List Grp :=
  if l = .fields then (upto 0 (x.nf.toNat + 1)).map (fun j => { base := d.val + j * c.lmul, eew := c.sew, g := c.lmul })
  else [c.grp d]

/-- The fields of element `i` (R210). -/
def fieldsOf (c : VCtx) (l : VLayout) (d : VReg) (x : VMem) (base : W) (fmt i : Nat) : X (List Field) := do
  let e := elemBytes fmt
  match l with
  | .packed =>
    let w := fmtBits fmt
    return [{ va := base + wd (i * w / 8), bit := i * w % 8, grp := c.grp d }]
  | .strided => do
    let st ← rd x.c
    return [{ va := base + wd i * st, bit := 0, grp := c.grp d }]
  | .fields =>
    let f := x.nf.toNat + 1
    return (fieldGroups c l d x).zipIdx.map (fun p => { va := base + wd ((i * f + p.2) * e), bit := 0, grp := p.1 })
  | .indexed => do
    let ix ← velem c (c.index x.b) i
    return [{ va := base + wd ix, bit := 0, grp := c.grp d }]

/-- The active elements below VL. -/
def activeList (c : VCtx) (k : KReg) : X (List Nat) := do
  let h := (← get).hart c.h
  return (upto 0 c.vl).filter (fun i => h.kbit k.val i)

/-- The coverage of an instruction's stores: the ranges that its active elements write, where they translate (R240,
R248, log 26). -/
def coverOf (r : Rq) (spans : List (W × Nat)) : X Cov := do
  let s ← get
  return Cov.of (spans.filterMap (fun e =>
    match (resolve s r .vector .write e.1 e.2).1 with
    | .ok a => some (homeAddr a.1 a.2, e.2)
    | .error _ => none))

/-- The whole bytes that the active elements of a plain store write (R118). -/
def plainSpans (c : VCtx) (l : VLayout) (d : VReg) (x : VMem) (base : W) (fmt : Nat) : List Nat → X (List (W × Nat))
  | [] => pure []
  | i :: rest => do
    let fs ← fieldsOf c l d x base fmt i
    let more ← plainSpans c l d x base fmt rest
    return fs.map (fun f => (f.va, elemBytes fmt)) ++ more

/-- The whole bytes that a sub-byte store writes: those all of whose elements are active (R118). -/
def bitSpans (base : W) (fmt : Nat) (act : List Nat) : List (W × Nat) :=
  let per := 8 / fmtBits fmt
  ((act.map (· / per)).eraseDups.filter (fun b => (upto (b * per) per).all act.contains)).map (fun b => (base + wd b, 1))

/-- The values of checked fields, each on its own (R213). -/
def loadEach (r : Rq) : List Piece → X (List Nat)
  | [] => pure []
  | e :: l => do
    let x ← loadAt r e.acc e.p e.va e.n
    let rest ← loadEach r l
    return x :: rest

/-- Writes the loaded fields of element `i`, converted (R107, R118). -/
def putFields (c : VCtx) (fmt i : Nat) (l : List (Field × Nat)) : X Unit :=
  eachOf (fun p => do
    let v := fromFmt c.sew c.rm fmt (p.2 / 2 ^ p.1.bit % 2 ^ fmtBits fmt)
    setFlags v.2
    setVelem c p.1.grp i v.1) l

/-- A plain load: faults of every field first, then the values (R213, R215). -/
def plainLoad (c : VCtx) (l : VLayout) (d : VReg) (x : VMem) (base : W) (fmt : Nat) : X Unit := do
  let r ← myRq
  elements c x.k (fun i => do
    if ← kbitOf c x.k i then
      let fs ← fieldsOf c l d x base fmt i
      let ps ← accessAll r .vector .read .any (elemBytes fmt) (fs.map (fun f => (f.va, elemBytes fmt)))
      let vs ← loadEach r ps
      putFields c fmt i (fs.zip vs)
    else if x.z then eachOf (fun g => setVelem c g i 0) (fieldGroups c l d x)
    else pure ())

/-- The byte as stored at a place, for a store that keeps some of its bits (R118). -/
def storedByte (s : State) (acc : Acc) (p : Place) : Nat :=
  if isDram acc p then (s.byteAt (homeAddr acc p)).toNat else (homeRead s acc p 1).1.1 % 256

/-- Stores the fields of element `i`, converted; each field may be refused at its home by itself, with its own record, and the
others are written (R118, R214, log 87). Where a link holds one of them back, the element has done nothing yet (R114). -/
def putStores (c : VCtx) (r : Rq) (h fmt i : Nat) (cov : Cov) (l : List (Field × Piece)) : X Unit := do
  let s ← get
  if l.any (fun p => reach s r.stack (homeFor s p.2.acc p.2.p true) = .held) then stall
  eachOf (fun p => do
    let x ← velem c p.1.grp i
    let v := toFmt c.sew c.rm fmt x
    setFlags v.2
    let w := fmtBits fmt
    let s ← get
    let old := if w < 8 then storedByte s p.2.acc p.2.p else 0
    let y := old - old / 2 ^ p.1.bit % 2 ^ w * 2 ^ p.1.bit + v.1 % 2 ^ w * 2 ^ p.1.bit
    storeAt r h p.2.acc p.2.p p.2.n (if w < 8 then y else v.1 % 2 ^ w) i cov) l

/-- A plain store (R213 to R216); one to a lattice region is a join (R267). -/
def plainStore (c : VCtx) (l : VLayout) (d : VReg) (x : VMem) (base : W) (fmt : Nat) : X Unit := do
  let r ← myRq
  let h ← myNo
  let act ← activeList c x.k
  let spans ← if fmtBits fmt < 8 then pure (bitSpans base fmt act) else plainSpans c l d x base fmt act
  let cov ← coverOf r spans
  elements c x.k (fun i => do
    if ← kbitOf c x.k i then
      let fs ← fieldsOf c l d x base fmt i
      let ps ← accessAll r .vector .write (if fmtBits fmt < 8 then .never else .exact) (elemBytes fmt)
        (fs.map (fun f => (f.va, elemBytes fmt)))
      joinFirst ps
      putStores c r h fmt i cov (fs.zip ps)
    else pure ())

/-- The elements of block `b` of an access of VL elements (R125). -/
def blockElems (c : VCtx) (fmt b : Nat) : List (Option Nat) := blkElems fmt c.rowlen c.vl b

/-- A slot of a side list on the elements of its block: the replaced slot and value, and the flags (R127). -/
def sideSlot (c : VCtx) (fmt w : Nat) : Option (Nat × Nat) × Nat :=
  if w / 2 ^ 31 % 2 = 0 then (none, 0)
  else
    let ix := w / 65536 % 32
    if blkN fmt ≤ ix ∨ w / 2 ^ 21 % 1024 ≠ 0 then (none, fNV)
    else
      let v := fromFmtF (layOf c.sew) c.rm 2 (w % 65536)
      (some (ix, v.1), v.2)

/-- The value of slot `j` after the side list: slot 1 is applied after slot 0 (R127). -/
def sideVal (side : List (Option (Nat × Nat))) (j v : Nat) : Nat :=
  side.foldl (fun acc e =>
    match e with
    | none => acc
    | some p => if p.1 = j then p.2 else acc) v

/-- The bytes of one 32-bit slot of a side entry. -/
def slotWord (x j : Nat) : Nat := x / 2 ^ (32 * j) % 2 ^ 32

/-- The ranges of one block and its side entry, one unit (R213, R220): the data's cut where a line ends, under rule `u`
and the entry, which counts as one 8-byte element (R216, log 72), under rule `us`. -/
def blockWants (fmt : Nat) (base : W) (side : Option W) (u us : UnitRule) (b : Nat) : List Want :=
  (piecesOf (base + wd (b * blkBytes fmt)) (blkBytes fmt)).map (fun e => { va := e.1, n := e.2, al := 1, u := u }) ++
    match side with
    | none => []
    | some a => [{ va := a + wd (8 * b), n := 8, al := 8, u := us }]

/-- One block of a load: its data, then its side entry where `side` gives the list (R125, R127, R213, R220). An element that
a side slot replaces raises the flags of its block conversion too, and slot 0 its own where slot 1 replaces the same one
(log 86). -/
def blockLoad (c : VCtx) (r : Rq) (d : Grp) (k : KReg) (z : Bool) (base : W) (fmt : Nat) (side : Option W) (t b : Nat) :
    X Unit := do
  let h := (← get).hart c.h
  let es := (blockElems c fmt b).zipIdx.filterMap (fun p => p.1.map (fun i => (i, p.2)))
  let todo := es.filter (fun p => decide (t ≤ p.1))
  let on := todo.filter (fun p => h.kbit k.val p.1)
  if !on.isEmpty then
    let va := base + wd (b * blkBytes fmt)
    let all ← accessWants r .vector .read (blockWants fmt base side .any .any b)
    let m := (piecesOf va (blkBytes fmt)).length
    let raw ← loadAll r va (all.take m)
    let sx ← loadAll r ((side.getD 0) + wd (8 * b)) (all.drop m)
    let sl := if side.isSome then [sideSlot c fmt (slotWord sx 0), sideSlot c fmt (slotWord sx 1)] else []
    let hits := sl.filter (fun e =>
      match e.1 with
      | none => true
      | some p => on.any (fun q => q.2 == p.1))
    setFlags (hits.foldl (fun a e => a ||| e.2) 0)
    let bytes := leBytes (blkBytes fmt) raw
    eachOf (fun p => do
      let v := blkLoad (layOf c.sew) c.rm fmt bytes p.2
      setFlags v.2
      setVelem c d p.1 (sideVal (sl.map (·.1)) p.2 v.1)) on
  if z then eachOf (fun p => if h.kbit k.val p.1 then pure () else setVelem c d p.1 0) todo

/-- Stores the ranges of one unit, all of it or none: a refused unit posts one record (R213, R214, R220). -/
def storeTogether (r : Rq) (h elem : Nat) (cov : Cov) (ps : List (Piece × Nat)) : X Unit := do
  match ← storeParts r cov ps, ps with
  | some cause, e :: _ => modify (fun u => postRefusal u h e.1.acc 0 elem cause)
  | _, _ => pure ()

/-- The ranges of a unit with the part of a number that each holds. -/
def splitData : Nat → List Piece → List (Piece × Nat)
  | _, [] => []
  | x, p :: l => (p, x % 2 ^ (8 * p.n)) :: splitData (x / 2 ^ (8 * p.n)) l

/-- One block of a store, written in full where it holds an active element (R125, R126, R215, R220). -/
def blockStore (c : VCtx) (r : Rq) (h : Nat) (d : Grp) (k : KReg) (base : W) (fmt oth : Nat) (side : Option W) (cov : Cov)
    (first b : Nat) : X Unit := do
  let x := (← get).hart c.h
  let es := blockElems c fmt b
  let real := es.map (fun e => e.bind (fun i => if x.kbit k.val i then some ((layOf c.sew).val (x.elem d i)) else none))
  if real.any (·.isSome) then
    let all ← accessWants r .vector .write (blockWants fmt base side .never .exact b)
    joinFirst all
    let m := (piecesOf (base + wd (b * blkBytes fmt)) (blkBytes fmt)).length
    let q := blkStore c.rm fmt oth real
    let sv := q.2.1.getD 0 0 + 2 ^ 32 * q.2.1.getD 1 0
    storeTogether r h first cov (splitData (leNat q.1) (all.take m) ++ splitData sv (all.drop m))
    setFlags q.2.2

/-- The first element of block `b`. -/
def blockFirst (c : VCtx) (fmt b : Nat) : Nat := ((blockElems c fmt b).filterMap id).headD 0

/-- The blocks of an access from element TIDX, under mask `k`; a drain deadline cuts at a block (R67, R213). -/
def blocks (c : VCtx) (k : KReg) (fmt : Nat) (f : Nat → Nat → X Unit) : X Unit := do
  let t ← getTidx
  let lo := (blkOf fmt c.rowlen c.vl t).1
  if t < c.vl then
    eachFrom (fun b => do
      let es := (blockElems c fmt b).filterMap id
      if c.cut && es.any (fun i => decide (c.stop ≤ i)) then throw (.cut (Nat.max t (blockFirst c fmt b)))
      atElem (blockFirst c fmt b) (do
        eachOf (stripAt c) es
        f t b)
      eachOf (stripFlags c k) (es.filter (fun i => decide (t ≤ i)))) lo (blkCount fmt c.rowlen c.vl - lo)

/-- The ranges that a block store writes (R125, R220). -/
def blockSpans (c : VCtx) (base : W) (fmt : Nat) (side : Option W) (act : List Nat) : List (W × Nat) :=
  let bs := (act.map (fun i => (blkOf fmt c.rowlen c.vl i).1)).eraseDups
  bs.flatMap (fun b => piecesOf (base + wd (b * blkBytes fmt)) (blkBytes fmt)) ++
    match side with
    | none => []
    | some a => bs.map (fun b => (a + wd (8 * b), 8))

/-- A vector memory instruction but the peer forms: `fits` says which formats it accepts (R211), `quant` whether it has
a side list (R220). -/
def vmemX (i : Instr) (store quant : Bool) (l : VLayout) (fits : Nat → Bool) (d : VReg) (x : VMem) (off : W) (s : State) :
    Out :=
  vecX i (do
    let c ← vctx
    let fmt := memFmt c store x.fmt
    let ix := if l = .indexed then [c.index x.b] else []
    let data := fieldGroups c l d x
    need i ((c.grp d :: ix).all (fun g => groupOk g.g g.base) && (data.all (fun g => decide (g.base + g.g ≤ 32))) &&
      (store || !(ix.any (c.grp d).overlaps)))
    checkVType c
    if (l = .indexed ∧ 8 < c.idxG) ∨ !fits fmt ∨ !fmtFits c fmt then vill c
    checkMask c (x.k.val != 0)
    let sc ← rd x.c
    if quant && sc.toNat % 8 != 0 then trap cMISALIGN sc
    takeStrips c (if store then data ++ ix else ix)
    let base := (← rd x.a) + off
    let side := if quant then some sc else none
    if fmtBlock fmt then
      let r ← myRq
      if store then
        let h ← myNo
        let act ← activeList c x.k
        let cov ← coverOf r (blockSpans c base fmt side act)
        let oth := if quant then c.oth else 0
        blocks c x.k fmt (fun _ b => blockStore c r h (c.grp d) x.k base fmt oth side cov (blockFirst c fmt b) b)
      else blocks c x.k fmt (fun t b => blockLoad c r (c.grp d) x.k x.z base fmt side t b)
    else if store then plainStore c l d x base fmt
    else plainLoad c l d x base fmt) s

/-- Every format (R211). -/
def anyFmt (_ : Nat) : Bool := true
/-- The formats of VSTQ and VLDQ (R211). -/
def quantFmt (c : Nat) : Bool := decide (17 ≤ c) && decide (c ≤ 30)

/-- VLD with a T2 tail (R209, R210). -/
def execVldTl2 (d : VReg) (x : VMem) (s : State) : Out := vmemX (.vldTl2 d x) false false .packed anyFmt d x 0 s
/-- VLD with a T3 tail (R209, R210). -/
def execVldTl3 (d : VReg) (x : VMem) (off : BitVec 16) (s : State) : Out :=
  vmemX (.vldTl3 d x off) false false .packed anyFmt d x (imm16 off) s
/-- VST with a T2 tail (R209, R210). -/
def execVstTl2 (d : VReg) (x : VMem) (s : State) : Out := vmemX (.vstTl2 d x) true false .packed anyFmt d x 0 s
/-- VST with a T3 tail (R209, R210). -/
def execVstTl3 (d : VReg) (x : VMem) (off : BitVec 16) (s : State) : Out :=
  vmemX (.vstTl3 d x off) true false .packed anyFmt d x (imm16 off) s
/-- VLDS with a T2 tail (R209, R210). -/
def execVldsTl2 (d : VReg) (x : VMem) (s : State) : Out := vmemX (.vldsTl2 d x) false false .strided fmtWhole d x 0 s
/-- VLDS with a T3 tail (R209, R210). -/
def execVldsTl3 (d : VReg) (x : VMem) (off : BitVec 16) (s : State) : Out :=
  vmemX (.vldsTl3 d x off) false false .strided fmtWhole d x (imm16 off) s
/-- VSTS with a T2 tail (R209, R210). -/
def execVstsTl2 (d : VReg) (x : VMem) (s : State) : Out := vmemX (.vstsTl2 d x) true false .strided fmtWhole d x 0 s
/-- VSTS with a T3 tail (R209, R210). -/
def execVstsTl3 (d : VReg) (x : VMem) (off : BitVec 16) (s : State) : Out :=
  vmemX (.vstsTl3 d x off) true false .strided fmtWhole d x (imm16 off) s
/-- VLSEG with a T2 tail (R209, R210). -/
def execVlsegTl2 (d : VReg) (x : VMem) (s : State) : Out := vmemX (.vlsegTl2 d x) false false .fields fmtWhole d x 0 s
/-- VLSEG with a T3 tail (R209, R210). -/
def execVlsegTl3 (d : VReg) (x : VMem) (off : BitVec 16) (s : State) : Out :=
  vmemX (.vlsegTl3 d x off) false false .fields fmtWhole d x (imm16 off) s
/-- VSSEG with a T2 tail (R209, R210). -/
def execVssegTl2 (d : VReg) (x : VMem) (s : State) : Out := vmemX (.vssegTl2 d x) true false .fields fmtWhole d x 0 s
/-- VSSEG with a T3 tail (R209, R210). -/
def execVssegTl3 (d : VReg) (x : VMem) (off : BitVec 16) (s : State) : Out :=
  vmemX (.vssegTl3 d x off) true false .fields fmtWhole d x (imm16 off) s
/-- VGATHER with a T2 tail (R209, R210). -/
def execVgatherTl2 (d : VReg) (x : VMem) (s : State) : Out :=
  vmemX (.vgatherTl2 d x) false false .indexed fmtWhole d x 0 s
/-- VGATHER with a T3 tail (R209, R210). -/
def execVgatherTl3 (d : VReg) (x : VMem) (off : BitVec 16) (s : State) : Out :=
  vmemX (.vgatherTl3 d x off) false false .indexed fmtWhole d x (imm16 off) s
/-- VSCATTER with a T2 tail (R209, R210). -/
def execVscatterTl2 (d : VReg) (x : VMem) (s : State) : Out :=
  vmemX (.vscatterTl2 d x) true false .indexed fmtWhole d x 0 s
/-- VSCATTER with a T3 tail (R209, R210). -/
def execVscatterTl3 (d : VReg) (x : VMem) (off : BitVec 16) (s : State) : Out :=
  vmemX (.vscatterTl3 d x off) true false .indexed fmtWhole d x (imm16 off) s
/-- VSTQ with a T2 tail (R126, R220). -/
def execVstqTl2 (d : VReg) (x : VMem) (s : State) : Out := vmemX (.vstqTl2 d x) true true .packed quantFmt d x 0 s
/-- VSTQ with a T3 tail (R126, R220). -/
def execVstqTl3 (d : VReg) (x : VMem) (off : BitVec 16) (s : State) : Out :=
  vmemX (.vstqTl3 d x off) true true .packed quantFmt d x (imm16 off) s
/-- VLDQ with a T2 tail (R127, R220). -/
def execVldqTl2 (d : VReg) (x : VMem) (s : State) : Out := vmemX (.vldqTl2 d x) false true .packed quantFmt d x 0 s
/-- VLDQ with a T3 tail (R127, R220). -/
def execVldqTl3 (d : VReg) (x : VMem) (off : BitVec 16) (s : State) : Out :=
  vmemX (.vldqTl3 d x off) false true .packed quantFmt d x (imm16 off) s

/-- The target core and scratchpad offset of a peer index (R218). -/
def peerTarget (ix : Nat) (base : W) : Nat × Nat := (ix / 2 ^ 23 % 64, (wd (ix % 2 ^ 23) + base).toNat)

/-- A hart's band has not stopped: it runs, or its harts are still on their way to the stop (R67, R230). -/
def bandGoes (s : State) (bi : Nat) : Bool :=
  match s.band? bi with
  | none => false
  | some b => decide (b.phase = .running) || decide (b.phase = .stopping)

/-- A core runs a crew of a context: one that has been suspended, removed or ended runs no more (R219, R230). -/
def crewRuns (s : State) (cid core : Nat) : Bool :=
  (coreHarts core).any (fun h => (s.hart h).live && (s.hart h).cid == cid && bandGoes s (s.hart h).band)

/-- A home cannot be reached and back (R36, R219). -/
def wayLost (s : State) (stack home : Nat) : Bool :=
  match reach s stack home with
  | .ok => false
  | .held => false
  | .unreached => true
  | .unanswered => true

/-- The step in which the instruction at the head of a queue was issued: the one that drew the number of the next (log
62). -/
def headIssued (x : Hart) : Nat :=
  match x.vq with
  | [] => x.vecNo / 512
  | [_] => x.vecNo / 512
  | _ :: e :: _ => e.no / 512

/-- Element `j` is aimed at a crew that has stopped while the instruction ran: it was performed before the stop or fails, each
for itself (R230, log 97). -/
def lateElem (s : State) (cid core j : Nat) : Bool :=
  match s.agent with
  | .queue h => decide (headIssued (s.hart h) < tget 0 s.crewStops (core * 65536 + cid)) && Config.peerLate s.ticks j
  | .hart _ => false
  | .mseq _ => false
  | .cseq _ => false

/-- Active peer element `j` fails, but for the poison of its data (R219, R230). -/
def peerFails (s : State) (cid stack e j ix : Nat) (base : W) : Bool :=
  let t := peerTarget ix base
  ix / 2 ^ 29 % 8 != 0 || decide (spBytes s.sdp < t.2 + e) || t.2 % e != 0 ||
    (!crewRuns s cid t.1 && !lateElem s cid t.1 j) ||
    tget false s.gated t.1 || wayLost s stack (coreStack t.1)

/-- Bit `i` of the fault mask of a peer instruction; k0 discards it (R219). -/
def faultBit (c : VCtx) (m : Nat) (i : Nat) (b : Bool) : X Unit :=
  modify (fun s => s.modHart c.h (fun x => x.setKbit m i b))

/-- The scratchpad bytes that a peer scatter writes (R240). -/
def peerSpans (c : VCtx) (r : Rq) (g : Grp) (e : Nat) (base : W) : List Nat → X (List (Nat × Nat))
  | [] => pure []
  | i :: l => do
    let v ← velem c g i
    let s ← get
    let more ← peerSpans c r g e base l
    if peerFails s r.cid r.stack e i v base then return more
    else
      let t := peerTarget v base
      return (spadAddr t.1 t.2, e) :: more

/-- A peer gather or scatter (R218, R219, R230), whose elements wait as vector accesses do (R168, R180). An element that fails
raises no conversion flags (log 98). -/
def peerX (i : Instr) (store : Bool) (d : VReg) (x : VMem) (off : W) (s : State) : Out :=
  vecX i (do
    let c ← vctx
    let fmt := memFmt c store x.fmt
    let ix := c.index x.b
    need i ([c.grp d, ix].all (fun g => groupOk g.g g.base) && (store || !(c.grp d).overlaps ix))
    checkVType c
    if 8 < c.idxG ∨ !fmtWhole fmt ∨ !fmtFits c fmt then vill c
    checkMask c (x.k.val != 0 || x.c.val != 0)
    takeStrips c (if store then [c.grp d, ix] else [ix])
    let base := (← rd x.a) + off
    let r ← myRq
    let e := elemBytes fmt
    let act ← if store then activeList c x.k else pure []
    let spans ← peerSpans c r ix e base act
    let cov := Cov.of spans
    elements c x.k (fun j => do
      if ← kbitOf c x.k j then
        let v ← velem c ix j
        let u ← get
        let t := peerTarget v base
        let a := spadAddr t.1 t.2
        let k := if store then AKind.write else AKind.read
        if svfHolds u .vector k || sptHeld u .vector k then stall
        if peerFails u r.cid r.stack e j v base then
          if wayLost u r.stack (coreStack t.1) then noteWay r.stack (coreStack t.1)
          if !store && x.z then setVelem c (c.grp d) j 0
          faultBit c x.c.val j true
        else if reach u r.stack (coreStack t.1) = .held then stall
        else if store then
          let q := toFmt c.sew c.rm fmt (← velem c (c.grp d) j)
          setFlags q.2
          modify (fun w => plainWrite w a e (q.1 % 2 ^ (8 * e)) cov)
          faultBit c x.c.val j false
        else
          let q := plainRead u a e
          if q.2 then
            if x.z then setVelem c (c.grp d) j 0
            faultBit c x.c.val j true
          else
            let y := fromFmt c.sew c.rm fmt q.1
            setFlags y.2
            setVelem c (c.grp d) j y.1
            faultBit c x.c.val j false
      else
        if !store && x.z then setVelem c (c.grp d) j 0
        faultBit c x.c.val j false)) s

/-- VGATHERP with a T2 tail (R218, R219). -/
def execVgatherpTl2 (d : VReg) (x : VMem) (s : State) : Out := peerX (.vgatherpTl2 d x) false d x 0 s
/-- VGATHERP with a T3 tail (R218, R219). -/
def execVgatherpTl3 (d : VReg) (x : VMem) (off : BitVec 16) (s : State) : Out :=
  peerX (.vgatherpTl3 d x off) false d x (imm16 off) s
/-- VSCATTERP with a T2 tail (R218, R219). -/
def execVscatterpTl2 (d : VReg) (x : VMem) (s : State) : Out := peerX (.vscatterpTl2 d x) true d x 0 s
/-- VSCATTERP with a T3 tail (R218, R219). -/
def execVscatterpTl3 (d : VReg) (x : VMem) (off : BitVec 16) (s : State) : Out :=
  peerX (.vscatterpTl3 d x off) true d x (imm16 off) s

end Sys2Proof.Machine
end

