-- ==== Sys2Proof/Machine/Matrix.lean ====
section
/-! DEFINITION. The matrix instructions (R270 to R285). -/
namespace Sys2Proof.Machine

/-- Key of element (i, j) of a tile (R236). -/
def tileKey (t i j : Nat) : Nat := t * 8192 + i * 128 + j
/-- Element (i, j) of a tile. -/
def Core.tileAt (k : Core) (t i j : Nat) : Nat := (tget 0 k.tiles (tileKey t i j)).toNat
/-- Writes element (i, j) of a tile. -/
def Core.setTile (k : Core) (t i j x : Nat) : Core :=
  { k with tiles := tput 0 k.tiles (tileKey t i j) (BitVec.ofNat 32 x) }
/-- Element `j` of row `p` of a latch: 64 elements in latch A, 128 in latch B (R270). -/
def Core.latAt (k : Core) (b : Bool) (p j : Nat) : Nat :=
  (if b then tget 0 k.latB (p * 128 + j) else tget 0 k.latA (p * 64 + j)).toNat
/-- Writes a row of a latch with its type bit (R280). -/
def Core.setRow (k : Core) (b : Bool) (p : Nat) (t : Bool) (xs : List Nat) : Core :=
  let put (w : Nat) (l : Tab (BitVec 32)) :=
    xs.zipIdx.foldl (fun l e => tput 0 l (p * w + e.2) (BitVec.ofNat 32 e.1)) l
  if b then { k with latB := put 128 k.latB, typB := tput false k.typB p t }
  else { k with latA := put 64 k.latA, typA := tput false k.typA p t }

/-- One k-step on the first `n` rows and `m` columns of a tile: each element becomes RoundFP32(acc + a × b, RNE), the
product exact (R131, R132). -/
def rankOne (k : Core) (t n m : Nat) (a b : Nat → FVal) : Core × Nat :=
  (upto 0 (n * m)).foldl (fun acc x =>
    let i := x / m
    let j := x % m
    let r := r32 (fFma (a i) (b j) (v32 (acc.1.tileAt t i j)))
    (acc.1.setTile t i j r.1, acc.2 ||| r.2)) (k, 0)

/-- A tile and the latch rows of a k-step hold +0 alone: the step leaves every element +0 and sets no flag. -/
def allZero (k : Core) (t p q : Nat) : Bool :=
  !k.tiles.any (fun e => e.1 / 8192 == t) && !k.latA.any (fun e => e.1 / 64 == p) &&
    !k.latB.any (fun e => e.1 / 128 == q)

/-- One k-step of MOPAL or MOPAX: row `p` of latch A with row `q` of latch B (R277, R278). -/
def latchStep (t : Nat) (acc : Core × Nat) (pq : Nat × Nat) : Core × Nat :=
  if allZero acc.1 t pq.1 pq.2 then acc
  else
    let r := rankOne acc.1 t 64 128 (fun i => v32 (acc.1.latAt false pq.1 i)) (fun j => v32 (acc.1.latAt true pq.2 j))
    (r.1, acc.2 ||| r.2)

/-- Changes the core of the agent. -/
def onCore_ (f : Core → Core) : X Unit := modify (fun s => s.modCore (agentCore s) f)
/-- The core of the agent. -/
def coreState : X Core := do
  let s ← get
  return s.core (agentCore s)

/-- MZERO (R275). -/
def execMzero (d : Tile) (s : State) : Out :=
  matrixX (.mzero d) (onCore_ (fun k => { k with tiles := tfilter (fun i => i / 8192 != d.val) k.tiles })) s

/-- MOPA and MOPS on the elements below VL (R276). -/
def mopaX (i : Instr) (d : Tile) (a b : VReg) (neg : Bool) (s : State) : Out :=
  matrixX i (do
    let c ← vctx
    let srcs := [c.grp a, c.grp b]
    vstart i c srcs false c.noFloat false srcs
    stripAll c
    stripDone c 0
    let x := (← get).hart c.h
    let l := layOf c.sew
    let va (j : Nat) : FVal := if neg then (l.val (x.elem (c.grp a) j)).negate else l.val (x.elem (c.grp a) j)
    let r := rankOne (← coreState) d.val (Nat.min c.vl 64) (Nat.min c.vl 128) va (fun j => l.val (x.elem (c.grp b) j))
    setFlags r.2
    onCore_ (fun _ => r.1)) s

/-- MOPA (R276). -/
def execMopa (d : Tile) (a b : VReg) (s : State) : Out := mopaX (.mopa d a b) d a b false s
/-- MOPS (R276). -/
def execMops (d : Tile) (a b : VReg) (s : State) : Out := mopaX (.mops d a b) d a b true s

/-- The k-steps of an instruction in order (R132). -/
def kSteps (t : Nat) (l : List (Nat × Nat)) : X Unit := do
  let r := l.foldl (latchStep t) (← coreState, 0)
  setFlags r.2
  onCore_ (fun _ => r.1)

/-- MOPAL: row k of latch A with row k of latch B, k ascending (R277). -/
def execMopal (d : Tile) (km1 : BitVec 6) (s : State) : Out :=
  matrixX (.mopal d km1) (kSteps d.val ((upto 0 (km1.toNat + 1)).map (fun k => (k, k)))) s

/-- MOPAX: the set bits of the mask, ascending, each with the next row of latch B (R278). -/
def execMopax (d : Tile) (k : KReg) (s : State) : Out :=
  matrixX (.mopax d k) (do
    let c ← vctx
    let x := (← get).hart c.h
    kSteps d.val (((upto 0 48).filter (fun p => x.kbit k.val p)).zipIdx)) s

/-- Bytes of a row of `w` elements in a format (R281, R285). -/
def rowBytes (fmt w : Nat) : Nat := if fmtBlock fmt then ceilDiv w (blkN fmt) * blkBytes fmt else w * fmtBits fmt / 8

/-- The element size at which a row of a whole-byte format must lie (R281). -/
def rowAlign (fmt : Nat) : Nat := if fmtWhole fmt then elemBytes fmt else 1

/-- The `w` elements of a row from its bytes, converted to a float type, with their flags (R118, R125, R280, R285). -/
def rowLoad (f : FLay) (rm fmt w : Nat) (bytes : List Byte) : List (Nat × Nat) :=
  (upto 0 w).map (fun j =>
    if fmtBlock fmt then
      let p := blkOf fmt w w j
      blkLoad f rm fmt ((bytes.drop (p.1 * blkBytes fmt)).take (blkBytes fmt)) p.2
    else fromFmtF f rm fmt (packGet bytes (j * fmtBits fmt) (fmtBits fmt)))

/-- The rows of an instruction from TIDX; a drain deadline cuts between them (R67, R273). -/
def rows (n : Nat) (f : Nat → X Unit) : X Unit := do
  let t ← getTidx
  let m := match cutOf (← get) with
    | none => n
    | some k => Nat.min k n
  eachFrom (fun r => atElem r (f r)) t (m - t)
  if m < n then throw (.cut (Nat.max t m))

/-- The bytes of one MGATH row at a scratchpad offset of the core (R281). -/
def spadRow (core fmt n : Nat) (adr : W) : X Nat := do
  let s ← get
  if spBytes s.sdp < adr.toNat + n then trap cXLATE adr
  if adr.toNat % rowAlign fmt ≠ 0 then trap cMISALIGN adr
  let v := plainRead s (spadAddr core adr.toNat) n
  if v.2 then trap cPOISON adr
  return v.1

/-- The bytes of one row through the ENGINE port (R281, R285). -/
def engineRow (r : Rq) (plain : Bool) (fmt n : Nat) (adr : W) : X Nat := do
  let l := piecesOf adr n
  precheck r .engine .read plain l
  if adr.toNat % rowAlign fmt ≠ 0 then trap cMISALIGN adr
  let ps ← accessAll r .engine .read .any 1 l
  loadAll r adr ps

/-- MGATH (R279 to R281). -/
def execMgath (d : BitVec 6) (x : MGath) (s : State) : Out :=
  matrixX (.mgath d x) (do
    let c ← vctx
    let ix := c.index x.b
    vstart (.mgath d x) c [ix] false (decide (8 < c.idxG)) false [ix]
    let fmt := memFmt c false x.fmt
    let w := if x.l then 128 else 64
    let f := if x.t then layFP32 else layBF16
    let core ← myCore
    let rq ← myRq
    let n := rowBytes fmt w
    let base ← rd x.a
    rows (x.nm1.toNat + 1) (fun r => do
      stripAt c r
      let adr := base + wd (← velem c ix r)
      let raw ← if x.m then engineRow rq false fmt n adr else spadRow core fmt n adr
      let ys := rowLoad f c.rm fmt w (leBytes n raw)
      setFlags ((ys.map (·.2)).foldl (· ||| ·) 0)
      onCore_ (fun k => k.setRow x.l (d.toNat + r) x.t (ys.map (fun y => if x.t then y.1 else y.1 * 65536)))
      stripFlags c 0 r)) s

/-- The tile element that element `i` of a row or column is (R283). -/
def moveAt (x : MMove) (i : Nat) : Nat × Nat := if x.col then (i, x.idx.toNat) else (x.idx.toNat, i)

/-- The context of a tile move, whose elements end at the row's or column's length (R283). -/
def moveCtx (c : VCtx) (x : MMove) : VCtx := { c with stop := Nat.min c.vl (if x.col then 64 else 128), cut := false }

/-- MRD (R282, R283). -/
def execMrd (d : VReg) (x : MMove) (s : State) : Out :=
  matrixX (.mrd d x) (do
    let c ← vctx
    vstart (.mrd d x) c [c.grp d] false c.noFloat (x.k.val != 0) []
    let k ← coreState
    elemWise (moveCtx c x) x.k x.z (c.grp d) (fun i => do
      let p := moveAt x i
      let e := k.tileAt x.t.val p.1 p.2
      if c.sew = 32 then return e
      else
        let r := rnd layBF16 c.rm (v32 e, 0)
        setFlags r.2
        return r.1)) s

/-- MWR (R282, R283). -/
def execMwr (d : VReg) (x : MMove) (s : State) : Out :=
  matrixX (.mwr d x) (do
    let c ← vctx
    vstart (.mwr d x) c [c.grp d] false c.noFloat (x.k.val != 0) [c.grp d]
    elements (moveCtx c x) x.k (fun i => do
      if ← kbitOf c x.k i then
        let p := moveAt x i
        let v ← velem c (c.grp d) i
        onCore_ (fun k => k.setTile x.t.val p.1 p.2 (if c.sew = 32 then v else v * 65536))
      else pure ())) s

/-- The address of row `r` of a tile move (R285). -/
def tileRow (x : MTile) (fmt : Nat) (off : W) (r : Nat) : X W := do
  let base := (← rd x.a) + off
  let p ← rd x.c
  return base + wd r * (if x.c.val = 0 then wd (rowBytes fmt 128) else p)

/-- MLD (R284, R285). -/
def mldX (i : Instr) (d : Tile) (x : MTile) (off : W) (s : State) : Out :=
  matrixX i (do
    let c ← vctx
    let fmt := memFmt c false x.fmt
    let rq ← myRq
    let n := rowBytes fmt 128
    rows (x.nm1.toNat + 1) (fun r => do
      let adr ← tileRow x fmt off r
      let raw ← engineRow rq true fmt n adr
      let ys := rowLoad layFP32 c.rm fmt 128 (leBytes n raw)
      setFlags ((ys.map (·.2)).foldl (· ||| ·) 0)
      onCore_ (fun k => ys.zipIdx.foldl (fun k y => k.setTile d.val (x.fr.toNat + r) y.2 y.1.1) k))) s

/-- MLD with a T2 tail (R284, R285). -/
def execMldTl2 (d : Tile) (x : MTile) (s : State) : Out := mldX (.mldTl2 d x) d x 0 s
/-- MLD with a T3 tail (R284, R285). -/
def execMldTl3 (d : Tile) (x : MTile) (off : BitVec 16) (s : State) : Out := mldX (.mldTl3 d x off) d x (imm16 off) s

/-- A unit of an MST: its first element, its address and bytes, and its data with the bits of them that it writes. -/
structure MUnit where
  elem : Nat
  va : W
  n : Nat
  data : Nat
  bit : Nat
  bits : Nat
deriving DecidableEq, Repr

/-- The units of tile row `r` at an address: elements, or blocks of a block format (R248, R285); with the flags of their
conversions. -/
def mstUnits (rm fmt r : Nat) (adr : W) (xs : List Nat) : List MUnit × Nat :=
  if fmtBlock fmt then
    let per := blkN fmt
    let qs := (upto 0 (ceilDiv 128 per)).map (fun b =>
      (b, blkStore rm fmt 0 (((xs.drop (b * per)).take per).map (fun y => some (v32 y)))))
    (qs.map (fun q => { elem := r * 128 + q.1 * per, va := adr + wd (q.1 * blkBytes fmt), n := blkBytes fmt,
                        data := leNat q.2.1, bit := 0, bits := 8 * blkBytes fmt }),
     (qs.map (·.2.2.2)).foldl (· ||| ·) 0)
  else
    let w := fmtBits fmt
    let qs := xs.zipIdx.map (fun y => (y.2, toFmtF layFP32 rm fmt y.1))
    (qs.map (fun q => { elem := r * 128 + q.1, va := adr + wd (q.1 * w / 8), n := elemBytes fmt, data := q.2.1 % 2 ^ w,
                        bit := q.1 * w % 8, bits := w }),
     (qs.map (·.2.2)).foldl (· ||| ·) 0)

/-- Performs one unit of an MST, or gives the cause of its refusal (R248, R285). -/
def mstUnit (r : Rq) (cov : Cov) (u : MUnit) : X (Option Nat) := do
  let ps ← accessAll r .engine .write .any 1 (piecesOf u.va u.n)
  let s ← get
  let x := match ps with
    | [p] =>
      if u.bits < 8 then
        let old := storedByte s p.acc p.p
        old - old / 2 ^ u.bit % 2 ^ u.bits * 2 ^ u.bit + u.data * 2 ^ u.bit
      else u.data
    | _ => u.data
  storeParts r cov (splitData x ps)

/-- Performs the units of a row in order; the refused ones with their causes. -/
def mstRow (r : Rq) (cov : Cov) : List MUnit → X (List (MUnit × Nat))
  | [] => pure []
  | u :: l => do
    let a ← mstUnit r cov u
    let rest ← mstRow r cov l
    return (match a with
      | none => rest
      | some cause => (u, cause) :: rest)

/-- Posts the record of a refused unit of a hart's MST (R285, R400). -/
def mstPost (h : Nat) (r : Rq) (e : MUnit × Nat) : X Unit := do
  match (resolve (← get) r .engine .write e.1.va 1).1 with
  | .ok a => modify (fun s => postRefusal s h a.1 0 e.1.elem e.2)
  | .error _ => pure ()

/-- The matrix sequencer keeps the first refused unit of its MST (R285). -/
def mstKeep (e : MUnit × Nat) : X Unit :=
  onCore_ (fun k => if k.mseq.refused.isSome then k
    else { k with mseq := { k.mseq with refused := some (e.1.elem, e.2, e.1.va) } })

/-- One row of an MST: its faults, then its units; a refused unit posts its record for a hart (R285). -/
def mstOne (d : Tile) (x : MTile) (off : W) (r : Nat) : X Unit := do
  let c ← vctx
  let fmt := memFmt c true x.fmt
  let rq ← myRq
  let len := rowBytes fmt 128
  let k ← coreState
  let adr ← tileRow x fmt off r
  let l := piecesOf adr len
  precheck rq .engine .write true l
  if adr.toNat % rowAlign fmt ≠ 0 then trap cMISALIGN adr
  let _ ← accessAll rq .engine .write .any 1 l
  let us := mstUnits c.rm fmt r adr ((upto 0 128).map (fun j => k.tileAt d.val (x.fr.toNat + r) j))
  let p0 ← tileRow x fmt off 0
  let p1 ← tileRow x fmt off 1
  let spans := (upto 0 (x.nm1.toNat + 1)).flatMap (fun q => piecesOf (p0 + wd q * (p1 - p0)) len)
  let cov ← coverOf rq spans
  let out ← mstRow rq cov us.1
  setFlags us.2
  let h ← myNo
  if (← get).agent.isSeq then eachOf mstKeep out else eachOf (mstPost h rq) out

/-- The matrix sequencer stops after an MST with a refused unit, at the PC of the MST (R285, R290). -/
def mstStop (s : State) (core : Nat) (pc : W) (e : Nat × Nat × W) : State :=
  let fw := faultWord e.2.1 0 e.1
  let q := (s.core core).mseq
  let s1 := s.modCore core (fun k => { k with mseq :=
    { q with phase := .stopped, fword := fw, fva := e.2.2, fpc := pc, refused := none } })
  s1.modTl (tlKey (s.hart q.owner).cid core 1) (fun t => { t with err := some { fword := fw, va := e.2.2, pc := pc } })

/-- What a completed MST of the matrix sequencer leaves (R285). -/
def mstEnd (pc : W) (s : State) : State :=
  let u := advance (countMatrix s) true
  match s.agent with
  | .mseq c =>
    match (s.core c).mseq.refused with
    | none => u
    | some e => mstStop u c pc e
  | .cseq _ => u
  | .hart _ => u
  | .queue _ => u

/-- An MST of the matrix sequencer that has performed all its rows completes, unless a window write of it waits: it then
stays at its instruction, past its rows, and its next turn performs what waits still (R238, R260, log 19). -/
def mstSeq (i : Instr) (core n : Nat) (s : State) (r : EStateM.Result Stop State Unit) : Out :=
  let q := (s.core core).mseq
  let mine (w : WinPart) : Bool := w.who == 512 + core
  match r with
  | .ok u t =>
    if decide (q.tidx.toNat < n) && t.winParts.any mine then
      .next (t.modCore core (fun k => { k with mseq := { k.mseq with tidx := wd n } }))
    else finishWhole i true (mstEnd q.pc) s (.ok u (flushParts mine t))
  | .error e t => finishWhole i true (mstEnd q.pc) s (.error e t)

/-- MST (R284, R285). -/
def mstX (i : Instr) (d : Tile) (x : MTile) (off : W) (s : State) : Out :=
  let body : X Unit := rows (x.nm1.toNat + 1) (mstOne d x off)
  match s.agent with
  | .mseq c => mstSeq i c (x.nm1.toNat + 1) (acceptMatrix s) (body.run (acceptMatrix s))
  | .cseq _ => .next (classStop s)
  | .hart _ => matrixX i body s
  | .queue _ => matrixX i body s

/-- MST with a T2 tail (R284, R285). -/
def execMstTl2 (d : Tile) (x : MTile) (s : State) : Out := mstX (.mstTl2 d x) d x 0 s
/-- MST with a T3 tail (R284, R285). -/
def execMstTl3 (d : Tile) (x : MTile) (off : BitVec 16) (s : State) : Out := mstX (.mstTl3 d x off) d x (imm16 off) s

end Sys2Proof.Machine
end

