-- ==== Sys2Proof/Machine/Order.lean ====
section
/-! DEFINITION. The ordering instructions FENCE and SVF (R164 to R168). Accesses are performed in program order where no
turn posts them, so that a fence waits only for posted ones (log 22). -/
namespace Sys2Proof.Machine

/-- Every store up to the last of a writer is seen. -/
def seenThrough (who : Nat) : List AliasStore → List AliasStore
  | [] => []
  | e :: l =>
    if e.who = who ∨ l.any (fun x => x.who == who) then { e with own := true } :: seenThrough who l else e :: l

/-- The window fence: both windows show the agent's stores, and what was stored to their parts before (R166, R262). -/
def windowClean (s : State) : State :=
  let who := whoOf s
  s.stale.foldl (fun s e => setAlias s e.1 { e.2 with log := seenThrough who e.2.log }) s

/-- The copies that a FENCE of the copy sequencer orders, or whose stores it performs: their granules read and write (R165,
R166). -/
def fenceCopies (x : FenceArgs) (s : State) (core : Nat) : Bool := (x.pr || x.pw || x.win) && seqCopies s core

/-- A FENCE of the copy sequencer waits for the copies that the sequencer has accepted (R165, R166). -/
def needCopies (x : FenceArgs) : X Unit := do
  let s ← get
  match s.agent with
  | .cseq c => if fenceCopies x s c then stall
  | .mseq _ => pure ()
  | .hart _ => pure ()
  | .queue _ => pure ()

/-- FENCE, in a hart or in a sequencer (R165, R166). A predecessor set of reads holds the STLs still under way. A faulted engine
stops the copy sequencer where copies of it have not completed, as at an arrival (R314, log 95). -/
def execFence (x : FenceArgs) (s : State) : Out :=
  unlessFaulted (fenceCopies x) s (syncX (.fence x) (do
    needCopies x
    if x.pw then needPosted else needReads
    if x.win then modify windowClean) s)

/-- A posted access reads, and writes, as the sets of an SVF count it: atomics and STL do both (R165, R168). -/
def FReq.kinds (q : FReq) : Bool × Bool :=
  match q.op with
  | .read => (true, false)
  | .write _ => (match encode q.instr with
      | none => false
      | some e => e.op == 0x4F, true)
  | .amo _ _ => (true, true)
  | .cas _ _ => (true, true)

/-- What an SVF leaves for later instructions of a hart (R168): with SV the posted accesses of the predecessor set that are
still under way, with VS the vector instructions issued so far, those of a queue image included, which a return reissues.
The hart itself does not wait. -/
def svfMark (x : SvfArgs) (s : State) (h : Nat) (y : Hart) : Hart :=
  let mine := s.reqs.filter (fun e => e.2.src == h && ((x.pr && e.2.kinds.1) || (x.pw && e.2.kinds.2)))
  let sv := y.sv.filter (fun w => s.reqs.any (fun e => e.1 == w.req))
  let vs := y.vs.filter (fun w => w.pends y || w.among y (y.image.getD []))
  { y with
    sv := if x.dir.toNat % 2 = 1 then sv ++ mine.map (fun e => { req := e.1, reads := x.sr, writes := x.sw }) else sv
    vs := if 2 ≤ x.dir.toNat then
        vs ++ [{ till := y.vecNo, pr := x.pr, pw := x.pw, sr := x.sr, sw := x.sw }] else vs }

/-- SVF (R168). -/
def execSvf (x : SvfArgs) (s : State) : Out :=
  scalarX (.svf x) (modify (fun s => s.modHart (agentHart s) (svfMark x s (agentHart s)))) s

end Sys2Proof.Machine
end

