-- ==== Sys2Proof/Machine/Scalar.lean ====
section
/-! DEFINITION. The integer and bit instructions of the scalar unit (R93, R142 to R148). -/
namespace Sys2Proof.Machine

/-- d ← f(a, b) over the registers of the hart (R139, R142). -/
def setRR (f : W → W → W) (d a b : SReg) (s : State) : Out := onHart s (fun x => x.wr d (f (x.rd a) (x.rd b)))
/-- d ← f(a) (R139, R142). -/
def setR (f : W → W) (d a : SReg) (s : State) : Out := onHart s (fun x => x.wr d (f (x.rd a)))

/-- A word of a truth value. -/
def wBool (b : Bool) : W := wd (b01 b)

/-- Shift count of R142: the low six bits. -/
def cnt6 (b : W) : Nat := b.toNat % 64

/-- MULH of R142. -/
def mulH (a b : W) : W := BitVec.ofInt 64 (a.toInt * b.toInt / (2 ^ 64 : Nat))
/-- MULHN of R142. -/
def mulHN (a b : W) : W := wd (a.toNat * b.toNat / 2 ^ 64)
/-- DIV of R142 and R143. -/
def divS (a b : W) : W := if b = 0 then BitVec.allOnes 64 else BitVec.ofInt 64 (Int.tdiv a.toInt b.toInt)
/-- DIVN of R142 and R143. -/
def divN (a b : W) : W := if b = 0 then BitVec.allOnes 64 else wd (a.toNat / b.toNat)
/-- REM of R142 and R143. -/
def remS (a b : W) : W := if b = 0 then a else BitVec.ofInt 64 (Int.tmod a.toInt b.toInt)
/-- REMN of R142 and R143. -/
def remN (a b : W) : W := if b = 0 then a else wd (a.toNat % b.toNat)
/-- CLZ of R142. -/
def clz64 (a : W) : W := wd (if a = 0 then 64 else 63 - Nat.log2 a.toNat)
/-- CTZ of R142. -/
def ctz64 (a : W) : W := wd ((upto 0 64).findIdx (fun i => a.toNat.testBit i))

/-- The bits of BEXT and BINS, cut at bit 63 (R147). -/
def fieldMask (pos lenm : BitVec 6) : W := wd ((2 ^ (lenm.toNat + 1) - 1) * 2 ^ pos.toNat)

/-- NOP (R93). -/
def execNop (s : State) : Out := syncX .nop (pure ()) s
/-- ADD (R142). -/
def execAdd (d a b : SReg) (s : State) : Out := setRR (fun a b => a + b) d a b s
/-- SUB (R142). -/
def execSub (d a b : SReg) (s : State) : Out := setRR (fun a b => a - b) d a b s
/-- AND (R142). -/
def execAnd (d a b : SReg) (s : State) : Out := setRR (fun a b => a &&& b) d a b s
/-- OR (R142). -/
def execOr (d a b : SReg) (s : State) : Out := setRR (fun a b => a ||| b) d a b s
/-- XOR (R142). -/
def execXor (d a b : SReg) (s : State) : Out := setRR (fun a b => a ^^^ b) d a b s
/-- SLL (R142). -/
def execSll (d a b : SReg) (s : State) : Out := setRR (fun a b => a <<< cnt6 b) d a b s
/-- SRL (R142). -/
def execSrl (d a b : SReg) (s : State) : Out := setRR (fun a b => a >>> cnt6 b) d a b s
/-- SRA (R142). -/
def execSra (d a b : SReg) (s : State) : Out := setRR (fun a b => a.sshiftRight (cnt6 b)) d a b s
/-- MUL (R142). -/
def execMul (d a b : SReg) (s : State) : Out := setRR (fun a b => a * b) d a b s
/-- MULH (R142, R143). -/
def execMulh (d a b : SReg) (s : State) : Out := setRR mulH d a b s
/-- MULHN (R142, R143). -/
def execMulhn (d a b : SReg) (s : State) : Out := setRR mulHN d a b s
/-- DIV (R142, R143). -/
def execDiv (d a b : SReg) (s : State) : Out := setRR divS d a b s
/-- DIVN (R142, R143). -/
def execDivn (d a b : SReg) (s : State) : Out := setRR divN d a b s
/-- REM (R142, R143). -/
def execRem (d a b : SReg) (s : State) : Out := setRR remS d a b s
/-- REMN (R142, R143). -/
def execRemn (d a b : SReg) (s : State) : Out := setRR remN d a b s
/-- MIN (R142). -/
def execMin (d a b : SReg) (s : State) : Out := setRR (fun a b => if a.slt b then a else b) d a b s
/-- MAX (R142). -/
def execMax (d a b : SReg) (s : State) : Out := setRR (fun a b => if a.slt b then b else a) d a b s
/-- MINN (R142). -/
def execMinn (d a b : SReg) (s : State) : Out := setRR (fun a b => if a < b then a else b) d a b s
/-- MAXN (R142). -/
def execMaxn (d a b : SReg) (s : State) : Out := setRR (fun a b => if a < b then b else a) d a b s
/-- SLT (R142). -/
def execSlt (d a b : SReg) (s : State) : Out := setRR (fun a b => wBool (a.slt b)) d a b s
/-- SLTN (R142). -/
def execSltn (d a b : SReg) (s : State) : Out := setRR (fun a b => wBool (a.ult b)) d a b s
/-- SEL (R146). -/
def execSel (d a b c : SReg) (s : State) : Out :=
  onHart s (fun x => x.wr d (if x.rd c = 0 then x.rd b else x.rd a))
/-- CLZ (R142). -/
def execClz (d a : SReg) (s : State) : Out := setR clz64 d a s
/-- CTZ (R142). -/
def execCtz (d a : SReg) (s : State) : Out := setR ctz64 d a s
/-- POPC (R142). -/
def execPopc (d a : SReg) (s : State) : Out := setR (fun a => wd (popNat a.toNat 64)) d a s
/-- BREV (R142). -/
def execBrev (d a : SReg) (s : State) : Out := setR (fun a => wd (revBits a.toNat 64)) d a s
/-- BEXT (R147). -/
def execBext (d : SReg) (pos lenm : BitVec 6) (a : SReg) (s : State) : Out :=
  setR (fun a => (a >>> pos.toNat) &&& wd (2 ^ (lenm.toNat + 1) - 1)) d a s
/-- BINS (R147). -/
def execBins (d : SReg) (pos lenm : BitVec 6) (a : SReg) (s : State) : Out :=
  setRR (fun d a => (d &&& ~~~fieldMask pos lenm) ||| ((a <<< pos.toNat) &&& fieldMask pos lenm)) d d a s
/-- The result of ADDI (R144). -/
def addiOf (a i : W) : W := a + i
/-- ADDI with a T2 tail (R144). -/
def execAddiTl2 (d a : SReg) (imm : BitVec 10) (s : State) : Out := setR (fun a => addiOf a (imm10 imm)) d a s
/-- ADDI with a T3 tail (R144). -/
def execAddiTl3 (d a : SReg) (imm : BitVec 32) (s : State) : Out := setR (fun a => addiOf a (imm32 imm)) d a s
/-- The result of ANDI (R144). -/
def andiOf (a i : W) : W := a &&& i
/-- ANDI with a T2 tail (R144). -/
def execAndiTl2 (d a : SReg) (imm : BitVec 10) (s : State) : Out := setR (fun a => andiOf a (imm10 imm)) d a s
/-- ANDI with a T3 tail (R144). -/
def execAndiTl3 (d a : SReg) (imm : BitVec 32) (s : State) : Out := setR (fun a => andiOf a (imm32 imm)) d a s
/-- The result of ORI (R144). -/
def oriOf (a i : W) : W := a ||| i
/-- ORI with a T2 tail (R144). -/
def execOriTl2 (d a : SReg) (imm : BitVec 10) (s : State) : Out := setR (fun a => oriOf a (imm10 imm)) d a s
/-- ORI with a T3 tail (R144). -/
def execOriTl3 (d a : SReg) (imm : BitVec 32) (s : State) : Out := setR (fun a => oriOf a (imm32 imm)) d a s
/-- The result of XORI (R144). -/
def xoriOf (a i : W) : W := a ^^^ i
/-- XORI with a T2 tail (R144). -/
def execXoriTl2 (d a : SReg) (imm : BitVec 10) (s : State) : Out := setR (fun a => xoriOf a (imm10 imm)) d a s
/-- XORI with a T3 tail (R144). -/
def execXoriTl3 (d a : SReg) (imm : BitVec 32) (s : State) : Out := setR (fun a => xoriOf a (imm32 imm)) d a s
/-- The result of SLTI (R144). -/
def sltiOf (a i : W) : W := wBool (a.slt i)
/-- SLTI with a T2 tail (R144). -/
def execSltiTl2 (d a : SReg) (imm : BitVec 10) (s : State) : Out := setR (fun a => sltiOf a (imm10 imm)) d a s
/-- SLTI with a T3 tail (R144). -/
def execSltiTl3 (d a : SReg) (imm : BitVec 32) (s : State) : Out := setR (fun a => sltiOf a (imm32 imm)) d a s
/-- SLLI (R145). -/
def execSlli (d a : SReg) (n : BitVec 6) (s : State) : Out := setR (fun a => a <<< n.toNat) d a s
/-- SRLI (R145). -/
def execSrli (d a : SReg) (n : BitVec 6) (s : State) : Out := setR (fun a => a >>> n.toNat) d a s
/-- SRAI (R145). -/
def execSrai (d a : SReg) (n : BitVec 6) (s : State) : Out := setR (fun a => a.sshiftRight n.toNat) d a s
/-- LI with a T2I tail (R148). -/
def execLiTl2 (d : SReg) (imm : BitVec 26) (s : State) : Out := onHart s (fun x => x.wr d (imm26 imm))
/-- LI with a T3 tail (R148). -/
def execLiTl3 (d : SReg) (imm : BitVec 32) (s : State) : Out := onHart s (fun x => x.wr d (imm32 imm))
/-- LIH (R148). -/
def execLih (d : SReg) (imm : BitVec 32) (s : State) : Out :=
  onHart s (fun x => x.wr d (wd (imm.toNat * 2 ^ 32 + (x.rd d).toNat % 2 ^ 32)))

end Sys2Proof.Machine
end

