-- ==== Sys2Proof/Machine/SetVl.lean ====
section
/-! DEFINITION. SETVL and SETVLI (R62, R88, R194, R195). -/
namespace Sys2Proof.Machine

/-- VLMAX for a grant and the SEW and LMUL codes of a request (R62). -/
def vlmax (cur sew lm : Nat) : Nat := cur * 512 * 2 ^ lm / 2 ^ sew

/-- What a SETVL leaves in VTYPE and VL (R88, R195). -/
def setvlHart (q : VReq) (avl : Nat) (x : Hart) : Hart :=
  if 3 < q.sew.toNat ∨ 3 < q.lm.toNat then { x with vtype := vtypeReset, vl := 0 }
  else
    { x with vtype := wd (q.fz.toNat * 64 + q.lm.toNat * 8 + q.sew.toNat)
             vl := wd (Nat.min avl (vlmax x.cur q.sew.toNat q.lm.toNat)) }

/-- A SETVL of `avl` elements (R195). -/
def setvlX (i : Instr) (d : SReg) (q : VReq) (avl : X Nat) (s : State) : Out :=
  setX i (do
    needQueue
    let n ← avl
    modify (fun s => applyGrant s (agentHart s))
    onMe (setvlHart q n)
    wr d (← myHart).vl) s

/-- SETVL (R194, R195). -/
def execSetvl (d : SReg) (q : VReq) (a : SReg) (s : State) : Out :=
  setvlX (.setvl d q a) d q (do return (← rd a).toNat) s
/-- SETVLI (R194, R195). -/
def execSetvli (d : SReg) (q : VReq) (avl : BitVec 18) (s : State) : Out :=
  setvlX (.setvli d q avl) d q (pure avl.toNat) s

end Sys2Proof.Machine
end

