-- ==== Sys2Proof/Machine/Stream.lean ====
section
/-! DEFINITION. Binding and unbinding streams (R221, R224). -/
namespace Sys2Proof.Machine

/-- VSTREAM: it captures SEW, LMUL and the format, and ends the bindings that overlap its group (R221, R224). -/
def execVstream (d : VReg) (x : VStrm) (s : State) : Out :=
  vecX (.vstream d x) (do
    let c ← vctx
    let fmt := memFmt c false x.fmt
    need (.vstream d x) (groupOk c.lmul d.val)
    checkVType c
    if !fmtFits c fmt ∨ (x.c.val ≠ 0 ∧ !fmtWhole fmt) then vill c
    let base ← rd x.a
    let len ← rd x.b
    let st ← rd x.c
    let t : Stream := { base := base, len := len.toNat, stride := if x.c.val = 0 then none else some st, fmt := fmt,
                        sew := fld c.vtype 0 3, lm := fld c.vtype 3 3, mfc := c.mfc, cursor := 0, fetched := [] }
    modify (fun s => s.modHart c.h (fun y =>
      { y with streams := tins ((y.streams.filter (fun e => !(e.2.grp e.1).overlaps (c.grp d)))) d.val t }))) s

/-- VUNBIND: the binding whose group holds the register ends; without one it has no effect (R221, R224). -/
def execVunbind (d : VReg) (s : State) : Out :=
  vecX (.vunbind d) (do
    let c ← vctx
    checkVType c
    modify (fun s => s.modHart c.h (fun y => y.unbind d.val))) s

end Sys2Proof.Machine
end

