-- ==== Sys2Proof/Machine/Timelines.lean ====
section
/-! DEFINITION. TLWAIT and TLREAD (R307, R308). -/
namespace Sys2Proof.Machine

/-- The timeline TLC0 to TLC3 of the agent's context on its core (R260). -/
def myTimeline (t : BitVec 2) : X Timeline := do
  let s ← get
  let cid ← myCid
  return s.tl (tlKey cid (agentCore s) t.toNat)

/-- TLWAIT (R307): until the counter is at least n, or the timeline is in its error state below n. -/
def execTlwait (d : SReg) (t : BitVec 2) (b : SReg) (s : State) : Out :=
  syncX (.tlwait d t b) (do
    let x ← myTimeline t
    let n ← rd b
    if x.cnt < n.toNat ∧ x.err.isNone then stall
    wr d (wd x.cnt)) s

/-- TLREAD (R308). -/
def execTlread (d : SReg) (sel t : BitVec 2) (s : State) : Out :=
  syncX (.tlread d sel t) (do
    let x ← myTimeline t
    let e := x.err.getD { fword := 0, va := 0, pc := 0 }
    wr d (match sel.toNat with
      | 0 => wd x.cnt
      | 1 => e.fword
      | 2 => e.va
      | _ => e.pc)) s

end Sys2Proof.Machine
end

