-- ==== Sys2Proof/Machine/Unbacked.lean ====
section
/-! DEFINITION. DISCARD and MIGR (R363 to R371). -/
namespace Sys2Proof.Machine

/-- A block of 32 lines gives its late frame back once none of its lines is present (R366, R367). -/
def freeFrames (s : State) (cid : Nat) : State :=
  let c := s.ctx cid
  let serves (f : Nat × Nat × Nat) : Bool := c.ubLines.any (fun e => e.1 / 32 == f.2.1)
  let s1 := (c.frames.filter (fun f => !serves f)).foldl (fun s f => devPut s f.2.2 8 0) s
  s1.modCtx cid (fun c => { c with frames := c.frames.filter serves })

/-- A line of a context is dropped without writeback (R370). -/
def dropLine (cid : Nat) (s : State) (line : Nat) : State :=
  let lo := ubAddr cid (line * 128)
  let keep (k : Nat) : Bool := decide (k < lo) || decide (lo + 128 ≤ k)
  let s1 := s.modCtx cid (fun c => { c with ubLines := tdel c.ubLines line })
  let other (v : Nat × Nat) : Bool := v != (cid, line)
  { s1 with mem := tfilter keep s1.mem
            poison := tfilter (fun p => keep (16 * p)) s1.poison
            lost := tfilter (fun p => keep (16 * p)) s1.lost
            stks := tmap (fun _ t => { t with victims := t.victims.filter other }) s1.stks }

/-- The parts of a range in each 4 KiB page: address and bytes; the first argument counts the pages. -/
def pageParts : Nat → W → Nat → List (W × Nat)
  | 0, _, _ => []
  | k + 1, va, n =>
    let m := Nat.min n (4096 - va.toNat % 4096)
    if n = 0 then [] else (va, m) :: pageParts k (va + wd m) (n - m)

/-- The physical ranges of a DISCARD, each translated for a write (R370), which a SPTSW of another hart holds (R180). -/
def discardPages (r : Rq) : List (W × Nat) → X (List (Acc × W × Nat))
  | [] => pure []
  | e :: l => do
    let s ← get
    if sptHeld s .scalar .write then stall
    match resolve s r .scalar .write e.1 1 with
    | (.error x, _) => throw x
    | (.ok a, c) =>
      set (tlbFill s r.cid c)
      let rest ← discardPages r l
      return (a.1, e.1, e.2) :: rest

/-- DISCARD (R370). -/
def execDiscard (a b : SReg) (s : State) : Out :=
  scalarX (.discard a b) (do
    let va ← rd a
    let n := (← rd b).toNat
    if va.toNat % 128 ≠ 0 ∨ n % 128 ≠ 0 then trap cMISALIGN va
    let r ← myRq
    let ps ← discardPages r (pageParts (n / 4096 + 2) va n)
    eachOf (fun e => if e.1.ub then pure () else trap cPERM e.2.1) ps
    if n ≠ 0 then
      needQueue
      needPosted
      let hit (line : Nat) : Bool := ps.any (fun e => decide (e.1.pa ≤ line * 128) && decide (line * 128 < e.1.pa + e.2.2))
      let lines := (tkeys ((← get).ctx r.cid).ubLines).filter hit
      modify (fun s => freeFrames (lines.foldl (dropLine r.cid) s) r.cid)) s

/-- The size of the page that maps an address in the scalar tables, a contiguity group counting as one page (R242,
R371). -/
def scalarPage (s : State) (cid : Nat) (va : W) : Nat :=
  match svLeaf s (fld va 0 57) 5 (svRoot s cid) with
  | none => 4096
  | some (a, level) =>
    match leafSize level (rawNat s a 8 / 2 ^ 58 % 8) with
    | none => 4096
    | some c => pageBytes c

/-- A present line is in a late frame alone, or was dropped from the cache with a late frame behind it (R366, R371). -/
def Context.inLate (c : Context) (e : Nat × UbLoc) : Bool :=
  match e.2 with
  | .late => true
  | .dropped => (c.frameOf e.1).isSome
  | .zero => false
  | .cache => false
  | .victim => false

/-- MIGR's move of the page at a physical base to a stack: lines of the victim buffer return to the cache, and the
directory names the target unless it is the first current stack (R363, R371). -/
def migrate (s : State) (cid base size target : Nat) : State :=
  let inPage (line : Nat) : Bool := decide (base ≤ line * 128) && decide (line * 128 < base + size)
  let keep (v : Nat × Nat) : Bool := !(v.1 == cid && inPage v.2)
  let s1 := s.modCtx cid (fun c =>
    let dir := c.ubDir.filter (fun d => !(d.base == base && d.size == size))
    { c with
      ubLines := tmap (fun l u => if inPage l && u == .victim then .cache else u) c.ubLines
      ubDir := if target = linStack base then dir else { base := base, size := size, stack := target } :: dir })
  { s1 with stks := tmap (fun _ t => { t with victims := t.victims.filter keep }) s1.stks }

/-- The lines that MIGR brings into the cache of the target make their way conflicts there (R25, R366). -/
def settleMoved (cid base size target : Nat) : X Unit := do
  let c := (← get).ctx cid
  let here := c.ubLines.filter (fun e => decide (base ≤ e.1 * 128) && decide (e.1 * 128 < base + size) && e.2 == .cache)
  eachOf (fun e => conflictX target e.1 (some (cid, e.1)) cid) here

/-- MIGR (R371). -/
def execMigr (a b : SReg) (s : State) : Out :=
  scalarX (.migr a b) (do
    let va ← rd a
    let target := (← rd b).toNat
    if 15 < target then trap cPERM (wd target)
    let r ← myRq
    let ps ← discardPages r [(va, 1)]
    eachOf (fun e => if e.1.ub then pure () else trap cPERM va) ps
    let s1 ← get
    let c := s1.ctx r.cid
    let pa := match ps with
      | [] => 0
      | e :: _ => e.1.pa
    if c.curStack pa ≠ target then
      if walkLocked s1 r va then stall
      let size := scalarPage s1 r.cid va
      let base := pa - fld va 0 57 % size
      let inPage (line : Nat) : Bool := decide (base ≤ line * 128) && decide (line * 128 < base + size)
      let moving := (c.ubLines.filter (fun e => inPage e.1 && !c.inLate e)).length
      let named := c.ubDir.any (fun d => d.base == base && d.size == size)
      if tget 0 c.ubres target < c.used target + moving ∨
          (256 ≤ c.ubDir.length ∧ !named ∧ target ≠ linStack base) then trap cCAPACITY va
      needQueue
      needPosted
      modify (fun s => migrate s r.cid base size target)
      settleMoved r.cid base size target) s

end Sys2Proof.Machine
end

