-- ==== Sys2Proof/Machine/VecFloat.lean ====
section
/-! DEFINITION. The floating-point vector instructions (R129, R130, R133, R134, R202 to R205). -/
namespace Sys2Proof.Machine

/-- An operation on exact values, with its input and output flushes and one rounding with RNE (R129, R130). -/
def fArith (sew fz : Nat) (ops : List Nat) (f : List FVal → FVal × Nat) : Nat × Nat :=
  let l := layOf sew
  flushOut l fz (rnd l 0 (f (ops.map (fun b => l.val (flushIn l fz b)))))

/-- A two-operand operation as one on a list. -/
def two (f : FVal → FVal → FVal × Nat) (l : List FVal) : FVal × Nat :=
  match l with
  | [a, b] => f a b
  | _ => quiet 0

/-- A reference of R133 or R134 on an element: BF16 widens exactly and the result is rounded once more. -/
def fRef (sew fz : Nat) (f : Nat → Nat × Nat) (b : Nat) : Nat × Nat :=
  let l := layOf sew
  let x := flushIn l fz b
  flushOut l fz
    (if sew = 16 then
      let r := f (x * 65536)
      rnd layBF16 0 (v32 r.1, r.2)
    else f x)

/-- A floating-point instruction with two source operands (R202). -/
def vfloatX (i : Instr) (d : VReg) (x : VBin) (f : FVal → FVal → FVal × Nat) (s : State) : Out :=
  vecX i (do
    let c ← vctx
    let srcs := c.grp x.a :: srcGroups c x.src
    vstart i c (c.grp d :: srcs) false c.noFloat (x.k.val != 0) srcs
    elemWise c x.k x.z (c.grp d) (fun j => do
      let a ← velem c (c.grp x.a) j
      let b ← operandB c false x.src j
      let r := fArith c.sew c.fz [a, b] (two f)
      setFlags r.2
      return r.1)) s

/-- VFADD (R202). -/
def execVfadd (d : VReg) (x : VBin) (s : State) : Out := vfloatX (.vfadd d x) d x fAdd s
/-- VFSUB (R202). -/
def execVfsub (d : VReg) (x : VBin) (s : State) : Out := vfloatX (.vfsub d x) d x (fun a b => fAdd a b.negate) s
/-- VFMUL (R202). -/
def execVfmul (d : VReg) (x : VBin) (s : State) : Out := vfloatX (.vfmul d x) d x fMul s
/-- VFMIN: −0 is less than +0 (R202, R203). -/
def execVfmin (d : VReg) (x : VBin) (s : State) : Out := vfloatX (.vfmin d x) d x (fPick false) s
/-- VFMAX (R202, R203). -/
def execVfmax (d : VReg) (x : VBin) (s : State) : Out := vfloatX (.vfmax d x) d x (fPick true) s
/-- VFDIV (R202, R203). -/
def execVfdiv (d : VReg) (x : VBin) (s : State) : Out := vfloatX (.vfdiv d x) d x fDiv s

/-- A fused instruction: a × b + C, or C − a × b where `neg` holds, rounded once (R202). -/
def vfmaX (i : Instr) (d : VReg) (x : VFma) (neg : Bool) (s : State) : Out :=
  vecX i (do
    let c ← vctx
    let srcs := c.grp x.a :: c.grp x.c :: srcGroups c x.src
    vstart i c (c.grp d :: srcs) false c.noFloat (x.k.val != 0) srcs
    elemWise c x.k x.z (c.grp d) (fun j => do
      let a ← velem c (c.grp x.a) j
      let b ← operandB c false x.src j
      let o ← velem c (c.grp x.c) j
      let r := fArith c.sew c.fz [a, b, o] (fun l =>
        match l with
        | [p, q, t] => fFma (if neg then p.negate else p) q t
        | _ => quiet 0)
      setFlags r.2
      return r.1)) s

/-- VFMA (R202). -/
def execVfma (d : VReg) (x : VFma) (s : State) : Out := vfmaX (.vfma d x) d x false s
/-- VFNMA (R202). -/
def execVfnma (d : VReg) (x : VFma) (s : State) : Out := vfmaX (.vfnma d x) d x true s

/-- A floating-point instruction with one source group; `f` takes SEW, FZ and the element (R202). -/
def vunX (i : Instr) (d : VReg) (x : VUn) (f : Nat → Nat → Nat → Nat × Nat) (s : State) : Out :=
  vecX i (do
    let c ← vctx
    vstart i c [c.grp d, c.grp x.a] false c.noFloat (x.k.val != 0) [c.grp x.a]
    elemWise c x.k x.z (c.grp d) (fun j => do
      let a ← velem c (c.grp x.a) j
      let r := f c.sew c.fz a
      setFlags r.2
      return r.1)) s

/-- VFSQRT (R202, R203). -/
def execVfsqrt (d : VReg) (x : VUn) (s : State) : Out :=
  vunX (.vfsqrt d x) d x (fun w fz a => fArith w fz [a] (fun l =>
    match l with
    | [p] => fSqrt p
    | _ => quiet 0)) s
/-- VFEXP2 (R133, R202). -/
def execVfexp2 (d : VReg) (x : VUn) (s : State) : Out := vunX (.vfexp2 d x) d x (fun w fz a => fRef w fz exp2Ref a) s
/-- VFRCP (R134, R202). -/
def execVfrcp (d : VReg) (x : VUn) (s : State) : Out := vunX (.vfrcp d x) d x (fun w fz a => fRef w fz rcpRef a) s

/-- A floating-point compare: `quietNaN` says whether any NaN sets NV, or a signalling one alone (R204). -/
def vfcmpX (i : Instr) (d : KReg) (x : VBin) (anyNaN : Bool) (f : FVal → FVal → Bool) (s : State) : Out :=
  vecX i (do
    let c ← vctx
    let srcs := c.grp x.a :: srcGroups c x.src
    vstart i c srcs false c.noFloat true srcs
    elemWiseK c x.k x.z d (fun j => do
      let l := layOf c.sew
      let a := l.val (flushIn l c.fz (← velem c (c.grp x.a) j))
      let b := l.val (flushIn l c.fz (← operandB c false x.src j))
      let nan := a.isNan || b.isNan
      setFlags (flagIf (if anyNaN then nan else a.sig || b.sig) fNV)
      return !nan && f a b)) s

/-- VMFEQ: −0 and +0 compare equal (R204). -/
def execVmfeq (d : KReg) (x : VBin) (s : State) : Out := vfcmpX (.vmfeq d x) d x false fEq s
/-- VMFLT (R204). -/
def execVmflt (d : KReg) (x : VBin) (s : State) : Out := vfcmpX (.vmflt d x) d x true fLt s
/-- VMFLE (R204). -/
def execVmfle (d : KReg) (x : VBin) (s : State) : Out :=
  vfcmpX (.vmfle d x) d x true (fun a b => fLt a b || fEq a b) s

/-- A conversion of VFCVT on one element (R205): FZ acts between float types alone (R130). -/
def cvt (kind sew fz rm a : Nat) : Nat × Nat :=
  let l := layOf sew
  match kind with
  | 0 => flushOut layBF16 fz (rnd layBF16 rm (layFP32.val (flushIn layFP32 fz a), 0))
  | 1 => flushOut layFP32 fz (rnd layFP32 0 (layBF16.val (flushIn layBF16 fz a), 0))
  | 2 =>
    let r := fToInt rm (-(2 ^ (sew - 1) : Nat)) ((2 ^ (sew - 1) : Nat) - 1) (l.val a)
    (lowBits sew r.1, r.2)
  | 3 =>
    let r := fToInt rm 0 ((2 ^ sew : Nat) - 1) (l.val a)
    (lowBits sew r.1, r.2)
  | 4 => l.round rm (FVal.ofInt (sInt sew a))
  | _ => l.round rm (FVal.ofInt (a : Nat))

/-- VFCVT (R205): kinds 0 and 1 have a wide operand and require SEW 16. -/
def execVfcvt (d : VReg) (x : VCvt) (s : State) : Out :=
  vecX (.vfcvt d x) (do
    let c ← vctx
    let k := x.kind.toNat
    let src := if k = 0 then c.wide x.a else c.grp x.a
    let dst := if k = 1 then c.wide d else c.grp d
    let isWide := decide (k < 2)
    vstart (.vfcvt d x) c [dst, src] (isWide && dst.overlaps src)
      (c.noFloat || (isWide && (c.sew != 16 || c.noWide))) (x.k.val != 0) [src]
    elemWise c x.k x.z dst (fun j => do
      let a ← velem c src j
      let r := cvt k c.sew c.fz c.rm a
      setFlags r.2
      return r.1)) s

end Sys2Proof.Machine
end

