-- ==== Sys2Proof/Machine/VecInt.lean ====
section
/-! DEFINITION. The integer vector instructions (R198 to R201). -/
namespace Sys2Proof.Machine

/-- The value of an element read as signed or natural (R198). -/
def readAs (nat : Bool) (w x : Nat) : Int := if nat then (x % 2 ^ w : Nat) else sInt w x

/-- A same-width instruction: `f` takes SEW and the two operands of an element to its result and flags (R198). -/
def vintX (i : Instr) (d : VReg) (x : VBin) (zx : Bool) (f : Nat → Nat → Nat → Nat × Nat) (s : State) : Out :=
  vecX i (do
    let c ← vctx
    let srcs := c.grp x.a :: srcGroups c x.src
    vstart i c (c.grp d :: srcs) false false (x.k.val != 0) srcs
    elemWise c x.k x.z (c.grp d) (fun j => do
      let a ← velem c (c.grp x.a) j
      let b ← operandB c zx x.src j
      let r := f c.sew a b
      setFlags r.2
      return r.1 % 2 ^ c.sew)) s

/-- A saturating sum or difference (R198). -/
def satOp (n : Bool) (w : Nat) (x : Int) : Nat × Nat :=
  let r := if n then satN w x else satS w x
  (lowBits w r.1, r.2)

/-- VADD (R198). -/
def execVadd (d : VReg) (x : VBin) (s : State) : Out := vintX (.vadd d x) d x false (fun _ a b => (a + b, 0)) s
/-- VSUB (R198). -/
def execVsub (d : VReg) (x : VBin) (s : State) : Out :=
  vintX (.vsub d x) d x false (fun w a b => (a + 2 ^ w - b, 0)) s
/-- VMUL (R198). -/
def execVmul (d : VReg) (x : VBin) (s : State) : Out := vintX (.vmul d x) d x false (fun _ a b => (a * b, 0)) s
/-- VMULH (R198). -/
def execVmulh (d : VReg) (x : VBin) (s : State) : Out :=
  vintX (.vmulh d x) d x false (fun w a b => (lowBits w (readAs x.n w a * readAs x.n w b / (2 ^ w : Nat)), 0)) s
/-- VMIN (R198). -/
def execVmin (d : VReg) (x : VBin) (s : State) : Out :=
  vintX (.vmin d x) d x false (fun w a b => (if sInt w b < sInt w a then b else a, 0)) s
/-- VMAX (R198). -/
def execVmax (d : VReg) (x : VBin) (s : State) : Out :=
  vintX (.vmax d x) d x false (fun w a b => (if sInt w a < sInt w b then b else a, 0)) s
/-- VMINN (R198). -/
def execVminn (d : VReg) (x : VBin) (s : State) : Out :=
  vintX (.vminn d x) d x false (fun _ a b => (if b < a then b else a, 0)) s
/-- VMAXN (R198). -/
def execVmaxn (d : VReg) (x : VBin) (s : State) : Out :=
  vintX (.vmaxn d x) d x false (fun _ a b => (if a < b then b else a, 0)) s
/-- VAND (R198). -/
def execVand (d : VReg) (x : VBin) (s : State) : Out := vintX (.vand d x) d x false (fun _ a b => (a &&& b, 0)) s
/-- VOR (R198). -/
def execVor (d : VReg) (x : VBin) (s : State) : Out := vintX (.vor d x) d x false (fun _ a b => (a ||| b, 0)) s
/-- VXOR (R198). -/
def execVxor (d : VReg) (x : VBin) (s : State) : Out := vintX (.vxor d x) d x false (fun _ a b => (a ^^^ b, 0)) s
/-- VSLL: the count is taken modulo SEW (R198). -/
def execVsll (d : VReg) (x : VBin) (s : State) : Out :=
  vintX (.vsll d x) d x true (fun w a b => (a * 2 ^ (b % w), 0)) s
/-- VSRL (R198). -/
def execVsrl (d : VReg) (x : VBin) (s : State) : Out :=
  vintX (.vsrl d x) d x true (fun w a b => (a / 2 ^ (b % w), 0)) s
/-- VSRA (R198). -/
def execVsra (d : VReg) (x : VBin) (s : State) : Out :=
  vintX (.vsra d x) d x true (fun w a b => (lowBits w (sInt w a / (2 ^ (b % w) : Nat)), 0)) s
/-- VSADD (R198). -/
def execVsadd (d : VReg) (x : VBin) (s : State) : Out :=
  vintX (.vsadd d x) d x false (fun w a b => satOp x.n w (readAs x.n w a + readAs x.n w b)) s
/-- VSSUB (R198). -/
def execVssub (d : VReg) (x : VBin) (s : State) : Out :=
  vintX (.vssub d x) d x false (fun w a b => satOp x.n w (readAs x.n w a - readAs x.n w b)) s

/-- A widening instruction: `f` takes SEW, the wide accumulator and the two operands (R188, R190, R199); `acc` says
whether D is read. -/
def vwideX (i : Instr) (d : VReg) (x : VBin) (acc : Bool) (f : Nat → Nat → Nat → Nat → Int) (s : State) : Out :=
  vecX i (do
    let c ← vctx
    let w := c.wide d
    let ops := c.grp x.a :: srcGroups c x.src
    vstart i c (w :: ops) (ops.any w.overlaps) c.noWide (x.k.val != 0) (if acc then w :: ops else ops)
    elemWise c x.k x.z w (fun j => do
      let a ← velem c (c.grp x.a) j
      let b ← operandB c false x.src j
      let o ← if acc then velem c w j else pure 0
      return lowBits (2 * c.sew) (f c.sew o a b))) s

/-- VWMUL (R199). -/
def execVwmul (d : VReg) (x : VBin) (s : State) : Out :=
  vwideX (.vwmul d x) d x false (fun w _ a b => readAs x.n w a * readAs x.n w b) s
/-- VWMACC (R199). -/
def execVwmacc (d : VReg) (x : VBin) (s : State) : Out :=
  vwideX (.vwmacc d x) d x true (fun w o a b => (o : Int) + readAs x.n w a * readAs x.n w b) s
/-- VWMACCSN (R199). -/
def execVwmaccsn (d : VReg) (x : VBin) (s : State) : Out :=
  vwideX (.vwmaccsn d x) d x true (fun w o a b => (o : Int) + sInt w a * (b : Int)) s

/-- VNSRA (R200). -/
def execVnsra (d : VReg) (x : VBin) (s : State) : Out :=
  vecX (.vnsra d x) (do
    let c ← vctx
    let w := c.wide x.a
    let srcs := w :: srcGroups c x.src
    vstart (.vnsra d x) c (c.grp d :: srcs) (srcs.any (c.grp d).overlaps) c.noWide (x.k.val != 0) srcs
    elemWise c x.k x.z (c.grp d) (fun j => do
      let a ← velem c w j
      let b ← operandB c true x.src j
      let r := satOp x.n c.sew (roundShift (readAs x.n (2 * c.sew) a) (b % (2 * c.sew)) c.fxrm)
      setFlags r.2
      return r.1)) s

/-- An integer compare into a mask register (R201). -/
def vcmpX (i : Instr) (d : KReg) (x : VBin) (f : Nat → Nat → Nat → Bool) (s : State) : Out :=
  vecX i (do
    let c ← vctx
    let srcs := c.grp x.a :: srcGroups c x.src
    vstart i c srcs false false true srcs
    elemWiseK c x.k x.z d (fun j => do
      let a ← velem c (c.grp x.a) j
      let b ← operandB c false x.src j
      return f c.sew a b)) s

/-- VMSEQ (R201). -/
def execVmseq (d : KReg) (x : VBin) (s : State) : Out := vcmpX (.vmseq d x) d x (fun _ a b => decide (a = b)) s
/-- VMSLT (R201). -/
def execVmslt (d : KReg) (x : VBin) (s : State) : Out :=
  vcmpX (.vmslt d x) d x (fun w a b => decide (sInt w a < sInt w b)) s
/-- VMSLTN (R201). -/
def execVmsltn (d : KReg) (x : VBin) (s : State) : Out := vcmpX (.vmsltn d x) d x (fun _ a b => decide (a < b)) s

end Sys2Proof.Machine
end

