-- ==== Sys2Proof/Machine/VecPerm.lean ====
section
/-! DEFINITION. The permutations (R207). All but VBCAST start from element 0 (R192). -/
namespace Sys2Proof.Machine

/-- The offset or index operand of a slide or VEXT: S(B) or I6, natural (R207). -/
def offsetB (b : VSrc) : X Nat :=
  match b with
  | .s r => do return (← rd r).toNat
  | .i x => pure x.toNat
  | .v _ => pure 0

/-- A permutation: `f` takes the number of active elements below an element, and gives an active element its result,
none where it stays unchanged (R186, R207). -/
def permLoop (c : VCtx) (k : KReg) (z : Bool) (d : Grp) (skip : Nat → Bool) (f : Nat → Nat → X Nat) :
    Nat → Nat → Nat → X Unit
  | _, _, 0 => pure ()
  | i, cnt, n + 1 => do
    let on ← kbitOf c k i
    if skip i then pure ()
    else if on then
      let r ← f cnt i
      setVelem c d i r
    else if z then setVelem c d i 0
    else pure ()
    permLoop c k z d skip f (i + 1) (if on then cnt + 1 else cnt) n

/-- The checks of a permutation whose destination may not overlap its sources (R190, R192). -/
def permStart (i : Instr) (c : VCtx) (k : KReg) (d : Grp) (srcs : List Grp) : X Unit := do
  vstart i c (d :: srcs) (srcs.any d.overlaps) false (k.val != 0) srcs
  stripAll c
  stripDone c k

/-- VSLIDEUP: elements below the offset are unchanged (R207). -/
def execVslideup (d : VReg) (x : VBin) (s : State) : Out :=
  vecX (.vslideup d x) (do
    let c ← vctx
    permStart (.vslideup d x) c x.k (c.grp d) [c.grp x.a]
    let off ← offsetB x.src
    permLoop c x.k x.z (c.grp d) (fun j => decide (j < off)) (fun _ j => velem c (c.grp x.a) (j - off)) 0 0 c.vl) s

/-- VSLIDEDN (R207). -/
def execVslidedn (d : VReg) (x : VBin) (s : State) : Out :=
  vecX (.vslidedn d x) (do
    let c ← vctx
    permStart (.vslidedn d x) c x.k (c.grp d) [c.grp x.a]
    let off ← offsetB x.src
    permLoop c x.k x.z (c.grp d) (fun _ => false) (fun _ j =>
      if j + off < c.vl then velem c (c.grp x.a) (j + off) else pure 0) 0 0 c.vl) s

/-- VPERM (R207). -/
def execVperm (d : VReg) (x : VBin) (s : State) : Out :=
  vecX (.vperm d x) (do
    let c ← vctx
    permStart (.vperm d x) c x.k (c.grp d) (c.grp x.a :: srcGroups c x.src)
    permLoop c x.k x.z (c.grp d) (fun _ => false) (fun _ j => do
      let t ← operandB c false x.src j
      if t < c.vl then velem c (c.grp x.a) t else pure 0) 0 0 c.vl) s

/-- Active elements of A go to the positions counted from 0; the count is the result (R207). -/
def compressLoop (c : VCtx) (k : KReg) (d a : Grp) : Nat → Nat → Nat → X Nat
  | _, cnt, 0 => pure cnt
  | i, cnt, n + 1 => do
    if ← kbitOf c k i then
      let v ← velem c a i
      setVelem c d cnt v
      compressLoop c k d a (i + 1) (cnt + 1) n
    else compressLoop c k d a (i + 1) cnt n

/-- VCOMPRESS (R207). -/
def execVcompress (d : VReg) (x : VUn) (s : State) : Out :=
  vecX (.vcompress d x) (do
    let c ← vctx
    permStart (.vcompress d x) c x.k (c.grp d) [c.grp x.a]
    let n ← compressLoop c x.k (c.grp d) (c.grp x.a) 0 0 c.vl
    if x.z then eachFrom (fun j => setVelem c (c.grp d) j 0) n (c.vl - n)) s

/-- VEXPAND (R207). -/
def execVexpand (d : VReg) (x : VUn) (s : State) : Out :=
  vecX (.vexpand d x) (do
    let c ← vctx
    permStart (.vexpand d x) c x.k (c.grp d) [c.grp x.a]
    permLoop c x.k x.z (c.grp d) (fun _ => false) (fun cnt _ => velem c (c.grp x.a) cnt) 0 0 c.vl) s

/-- VBCAST: element-wise (R207). -/
def execVbcast (d : VReg) (x : VBcast) (s : State) : Out :=
  vecX (.vbcast d x) (do
    let c ← vctx
    vstart (.vbcast d x) c [c.grp d] false false (x.k.val != 0) []
    elemWise c x.k x.z (c.grp d) (fun j => operandB c false x.src j)) s

/-- VEXT: it writes its scalar when it completes (R191, R207). -/
def execVext (d : SReg) (x : VExt) (s : State) : Out :=
  vecX (.vext d x) (do
    let c ← vctx
    needQueue
    vstart (.vext d x) c [c.grp x.a] false false false [c.grp x.a]
    stripAll c
    stripDone c 0
    let j ← offsetB x.src
    if j < c.vl then
      let v ← velem c (c.grp x.a) j
      wr d (if x.n then wd v else sext c.sew v)
    else wr d 0) s

/-- The running sums of the active elements (R207). -/
def prefixLoop (c : VCtx) (k : KReg) (z : Bool) (d a : Grp) : Nat → Nat → Nat → X Unit
  | _, _, 0 => pure ()
  | i, acc, n + 1 => do
    if ← kbitOf c k i then
      let v ← velem c a i
      let t := (acc + v) % 2 ^ c.sew
      setVelem c d i t
      prefixLoop c k z d a (i + 1) t n
    else
      if z then setVelem c d i 0
      prefixLoop c k z d a (i + 1) acc n

/-- VPREFIX (R207). -/
def execVprefix (d : VReg) (x : VUn) (s : State) : Out :=
  vecX (.vprefix d x) (do
    let c ← vctx
    permStart (.vprefix d x) c x.k (c.grp d) [c.grp x.a]
    prefixLoop c x.k x.z (c.grp d) (c.grp x.a) 0 0 c.vl) s

end Sys2Proof.Machine
end

