-- ==== Sys2Proof/Machine/VecReduce.lean ====
section
/-! DEFINITION. The reductions (R135 to R137, R206): each starts from element 0 and writes its scalar when it
completes. -/
namespace Sys2Proof.Machine

/-- The elements below VL of a group, none where inactive. -/
def activeElems (c : VCtx) (k : KReg) (g : Grp) : Nat → Nat → X (List (Option Nat))
  | _, 0 => pure []
  | i, n + 1 => do
    let a ← velem c g i
    let on ← kbitOf c k i
    let l ← activeElems c k g (i + 1) n
    return (if on then some a else none) :: l

/-- A reduction: `f` takes SEW, the initial register and the elements to the result and its flags (R206). -/
def vredX (i : Instr) (d : SReg) (x : VRed) (fp : Bool) (f : VCtx → W → List (Option Nat) → W × Nat) (s : State) : Out :=
  vecX i (do
    let c ← vctx
    needQueue
    vstart i c [c.grp x.a] false (fp && c.noFloat) (x.k.val != 0) [c.grp x.a]
    stripAll c
    stripDone c x.k
    let es ← activeElems c x.k (c.grp x.a) 0 c.vl
    let r := f c (← rd x.b) es
    setFlags r.2
    wr d r.1) s

/-- The sum of the elements present. -/
def sumInt (n : Bool) (w : Nat) : List (Option Nat) → Int
  | [] => 0
  | none :: r => sumInt n w r
  | some a :: r => readAs n w a + sumInt n w r

/-- VREDSUM (R206). -/
def execVredsum (d : SReg) (x : VRed) (s : State) : Out :=
  vredX (.vredsum d x) d x false (fun c b es => (BitVec.ofInt 64 ((b.toNat : Int) + sumInt x.n c.sew es), 0)) s

/-- One step of VREDOSUM: the sum saturates (R206). -/
def satStep (n : Bool) (w : Nat) (acc : Int × Nat) (e : Option Nat) : Int × Nat :=
  match e with
  | none => acc
  | some a =>
    let r := if n then satN w (acc.1 + readAs n w a) else satS w (acc.1 + readAs n w a)
    (r.1, acc.2 ||| r.2)

/-- VREDOSUM (R206). -/
def execVredosum (d : SReg) (x : VRed) (s : State) : Out :=
  vredX (.vredosum d x) d x false (fun c b es =>
    let i0 := if x.n then satN c.sew (b.toNat : Int) else satS c.sew (sInt 64 b.toNat)
    let r := es.foldl (satStep x.n c.sew) i0
    (BitVec.ofInt 64 r.1, r.2)) s

/-- The greatest or least of a value and the elements present. -/
def pickInt (n max : Bool) (w : Nat) (acc : Int) (e : Option Nat) : Int :=
  match e with
  | none => acc
  | some a =>
    let v := readAs n w a
    if max then (if acc < v then v else acc) else (if v < acc then v else acc)

/-- VREDMAX (R206). -/
def execVredmax (d : SReg) (x : VRed) (s : State) : Out :=
  vredX (.vredmax d x) d x false (fun c b es =>
    (BitVec.ofInt 64 (es.foldl (pickInt x.n true c.sew) (readAs x.n c.sew b.toNat)), 0)) s

/-- VREDMIN (R206). -/
def execVredmin (d : SReg) (x : VRed) (s : State) : Out :=
  vredX (.vredmin d x) d x false (fun c b es =>
    (BitVec.ofInt 64 (es.foldl (pickInt x.n false c.sew) (readAs x.n c.sew b.toNat)), 0)) s

/-- The sum of two operands of which either may be absent, in FP32 with the flushes of R130 (R135). -/
def addAbsent (fz : Nat) (a b : Option Nat) : Option Nat × Nat :=
  match a, b with
  | some p, some q =>
    let r := fArith 32 fz [p, q] (two fAdd)
    (some r.1, r.2)
  | some p, none => (some p, 0)
  | none, q => (q, 0)

/-- One level of the tree of R135. -/
def treeLevel (fz : Nat) : List (Option Nat) → List (Option Nat) × Nat
  | [] => ([], 0)
  | [a] => ([a], 0)
  | a :: b :: r =>
    let p := addAbsent fz a b
    let t := treeLevel fz r
    (p.1 :: t.1, p.2 ||| t.2)

/-- The tree of R135 over the elements, with at most `n` levels. -/
def treeSum (fz : Nat) : Nat → List (Option Nat) → Option Nat × Nat
  | 0, l => (l.headD none, 0)
  | n + 1, l =>
    match l with
    | [] => (none, 0)
    | [a] => (a, 0)
    | _ =>
      let t := treeLevel fz l
      let r := treeSum fz n t.1
      (r.1, t.2 ||| r.2)

/-- An element widened to FP32, exactly (R135). -/
def widen32 (sew b : Nat) : Nat := if sew = 16 then b % 65536 * 65536 else b % 2 ^ 32

/-- The result of a floating-point sum, rounded once to the element type (R135, R136). -/
def narrow32 (sew : Nat) (x : Nat × Nat) : W × Nat :=
  if sew = 16 then
    let r := rnd layBF16 0 (v32 x.1, x.2)
    (wd r.1, r.2)
  else (wd x.1, x.2)

/-- VFREDSUM: the initial value is added last; with every element absent it is the result (R135, R206). -/
def execVfredsum (d : SReg) (x : VRed) (s : State) : Out :=
  vredX (.vfredsum d x) d x true (fun c b es =>
    let i0 := b.toNat % 2 ^ c.sew
    let t := treeSum c.fz 18 (es.map (fun e => e.map (widen32 c.sew)))
    match t.1 with
    | none => (wd i0, 0)
    | some v =>
      let r := fArith 32 c.fz [v, widen32 c.sew i0] (two fAdd)
      narrow32 c.sew (r.1, t.2 ||| r.2)) s

/-- VFREDOSUM (R136, R206). -/
def execVfredosum (d : SReg) (x : VRed) (s : State) : Out :=
  vredX (.vfredosum d x) d x true (fun c b es =>
    let i0 := b.toNat % 2 ^ c.sew
    if es.all (·.isNone) then (wd i0, 0)
    else
      narrow32 c.sew (es.foldl (fun acc e =>
        match e with
        | none => acc
        | some a =>
          let r := fArith 32 c.fz [acc.1, widen32 c.sew a] (two fAdd)
          (r.1, acc.2 ||| r.2)) (widen32 c.sew i0, 0))) s

/-- VFREDMAX (R203, R206). -/
def execVfredmax (d : SReg) (x : VRed) (s : State) : Out :=
  vredX (.vfredmax d x) d x true (fun c b es =>
    let r := es.foldl (fun acc e =>
      match e with
      | none => acc
      | some a =>
        let r := fArith c.sew c.fz [acc.1, a] (two (fPick true))
        (r.1, acc.2 ||| r.2)) (b.toNat % 2 ^ c.sew, 0)
    (wd r.1, r.2)) s

end Sys2Proof.Machine
end

