-- ==== Sys2Proof/Machine/VeldSeq.lean ====
section
/-! DEFINITION. The Veld sequencer and the layer controllers: move code (R318 to R324), its effects on rows (R320, R321,
R326 to R328), operations from start to completion (R331, R335 to R338), row clones (R344), and the lock time-outs (R338,
R341). -/
namespace Sys2Proof.Machine

/-- KIND, DST, SRC and MOD of a micro-move (R319). -/
def mvKind (w : BitVec 32) : Nat := w.toNat / 2 ^ 28
/-- DST of a micro-move (R319). -/
def mvDst (w : BitVec 32) : Nat := w.toNat / 2 ^ 18 % 1024
/-- SRC of a micro-move (R319). -/
def mvSrc (w : BitVec 32) : Nat := w.toNat / 2 ^ 8 % 1024
/-- MOD of a micro-move (R319). -/
def mvMod (w : BitVec 32) : Nat := w.toNat % 256

/-- DST is a row field of the kind (R322). -/
def dstField (k : Nat) : Bool := k == 1 || k == 2 || k == 3 || k == 4 || k == 7
/-- SRC is a row field of the kind (R322). -/
def srcField (k : Nat) : Bool := k == 1 || k == 3 || k == 4 || k == 7

/-- The word of the broadcast region at a word offset, from the base-die mirror (R324). -/
def colWord (s : State) (st i : Nat) : BitVec 32 := BitVec.ofNat 32 (s.natAt (colAddr st (4 * i)) 4)

/-- The words from an offset to the first END, at most `n`; none when no END comes (R324). -/
def programAt (s : State) (st : Nat) : Nat → Nat → Option (List (BitVec 32))
  | 0, _ => none
  | n + 1, i =>
    let w := colWord s st i
    if mvKind w = 15 then some [w] else (programAt s st n (i + 1)).map (w :: ·)

/-- Words from MCOFF within which an END must come (R324). -/
def wordLimit (mcoff : Nat) : Nat := Nat.min 4096 (65536 - mcoff)

/-- The fields that R320 requires are as it requires (R324). -/
def fieldsOk (lmask : Nat) (w : BitVec 32) : Bool :=
  let d := mvDst w
  let c := mvSrc w
  let m := mvMod w
  match mvKind w with
  | 1 => m == 0
  | 2 => c == 0 && m == 0
  | 3 => decide (m < 2)
  | 4 => decide (m < 2)
  | 5 => d == 0 && c == 0 && m == 0
  | 6 => d == 0 && c == 0 && m == 0
  | 7 => decide (m / 16 ≠ m % 16) && lmask.testBit (m / 16) && lmask.testBit (m % 16)
  | 8 => decide (1 ≤ c) && decide (c ≤ 255)
  | 9 => d == 0 && c == 0 && m == 0
  | 15 => d == 0 && c == 0 && m == 0
  | _ => false

/-- A row field stays within the data rows at every advance, or names a special row that the field may name (R318,
R322, R324). -/
def rowFieldOk (write : Bool) (row : Nat) (cnt iters : Nat) (stride rstep : Int) : Bool :=
  let t : Int := ((cnt - 1 : Nat) : Int) * stride
  let j : Int := ((iters - 1 : Nat) : Int) * rstep
  let ok (x : Int) : Bool := decide (0 ≤ (row : Int) + x) && decide ((row : Int) + x ≤ 1007)
  if row < 1008 then ok 0 && ok t && ok j && ok (t + j)
  else decide (row < 1021) && !(write && (row == 1016 || row == 1017))

/-- The LOOP whose body holds word `i`: its count and stride; 1 and 0 outside a loop (R322). -/
def loopOf (prog : List (BitVec 32)) (i : Nat) : Nat × Int :=
  match (upto 0 i).find? (fun p => mvKind (prog.getD p 0) == 8 && decide (i ≤ p + mvSrc (prog.getD p 0))) with
  | none => (1, 0)
  | some p => (mvDst (prog.getD p 0) + 1, sInt 8 (mvMod (prog.getD p 0)))

/-- Word `i` of a program is valid (R324). -/
def wordOk (op : VOp) (prog : List (BitVec 32)) (i : Nat) : Bool :=
  let w := prog.getD i 0
  let k := mvKind w
  let l := loopOf prog i
  let f (write : Bool) (row : Nat) : Bool := rowFieldOk write row l.1 op.iter l.2 op.rstep
  fieldsOk op.lmask w && (!dstField k || f true (mvDst w)) && (!srcField k || f false (mvSrc w)) &&
    (k != 8 || (decide (i + mvSrc w + 1 < prog.length) &&
      (upto (i + 1) (mvSrc w)).all (fun x => mvKind (prog.getD x 0) != 8)))

/-- Validation of a launch (R324, R339): its program, or the index of the fault. -/
def validate (s : State) (st : Nat) (op : VOp) : Except Nat (List (BitVec 32)) :=
  match programAt s st (wordLimit op.mcoff) op.mcoff with
  | none => .error (wordLimit op.mcoff)
  | some prog =>
    match (upto 0 prog.length).find? (fun i => !wordOk op prog i) with
    | none => .ok prog
    | some i => .error i

/-- All 8,192 lanes. -/
def allLanes : Nat := 2 ^ 8192 - 1

/-- The cell of a row and whether the row reads as its complement (R20, R318). -/
def cellRow (row : Nat) : Nat × Bool := if row = 1013 then (1012, true) else if row = 1015 then (1014, true) else (row, false)

/-- The 8,192 bits of the row at an address as its cells hold them: under a key other than 0 they are cipher text, under a
compression tag an encoding (R249, R317, R319). -/
def rowBits (s : State) (a : Nat) : Nat := (upto (a / 128) 8).foldr (fun l x => cellBytes128 s l + 2 ^ 1024 * x) 0

/-- The poison word of the row at an address (R326); a line whose tag no read decodes is poisoned in all its parts
(R250). -/
def rowPoison (s : State) (a : Nat) : Nat :=
  (upto 0 64).foldl (fun n q =>
    if s.poisoned (a / 16 + q) || decide (8 ≤ tget 0 s.tags (a / 128 + q / 8)) then n + 2 ^ q else n) 0

/-- The poison word of a row, and the codewords of it whose data bits a double-bit error leaves open (R326, R349). -/
structure RowBad where
  p : Nat
  o : Nat
deriving DecidableEq, Repr

/-- No codeword is poisoned. -/
def RowBad.none : RowBad := { p := 0, o := 0 }

/-- The poison of a row that takes poison from both (R320). -/
def RowBad.or (a b : RowBad) : RowBad := { p := a.p ||| b.p, o := a.o ||| b.o }

/-- The poison of the row at an address, with its open codewords (R326, R349). -/
def rowBad (s : State) (a : Nat) : RowBad :=
  { p := rowPoison s a, o := (upto 0 64).foldl (fun n q => if s.isLost (a / 16 + q) then n + 2 ^ q else n) 0 }

/-- A source activation: soft errors show, and the row's bits and poison are read (R318, R327). -/
def readRow (s : State) (u row : Nat) : (Nat × RowBad) × State :=
  if row = 1016 then ((0, RowBad.none), s)
  else if row = 1017 then ((allLanes, RowBad.none), s)
  else
    let c := cellRow row
    let a := u * 2 ^ 20 + c.1 * 1024
    let s1 := (upto (a / 16) 64).foldl settleSoft s
    ((if c.2 then allLanes - rowBits s1 a else rowBits s1 a, rowBad s1 a), s1)

/-- The poison of one codeword after a move that writes some of its lanes, and whether its data bits are open (R321,
R349). -/
def spoilPart (mask : Nat) (bad : RowBad) (a : Nat) (s : State) (q : Nat) : State :=
  let m := mask / 2 ^ (128 * q) % 2 ^ 128
  let all := decide (m = 2 ^ 128 - 1)
  let k := a / 16 + q
  let p := bad.p.testBit q || (!all && s.poisoned k)
  if m = 0 then s
  else
    let s1 := { s with softErr := if all then tdel s.softErr k else s.softErr }
    if p then s1.spoil k (bad.o.testBit q || (!all && s.isLost k)) else s1.setPoison k false

/-- The row at an address once lanes of it have been written. -/
def newRow (s : State) (a mask val : Nat) : Nat :=
  let old := rowBits s a
  old - (old &&& mask) + (val &&& mask)

/-- A mask has a lane among `n` lanes from lane `k · n` (R321). -/
def hasLane (mask n k : Nat) : Bool := decide (mask / 2 ^ (n * k) % 2 ^ n ≠ 0)

/-- Writes the row at an address under a mask: its check bits are recomputed, and its lines that have a lane under the mask
stand uncompressed under key 0; a line of a bad tag stays poisoned where it is not written whole, and a codeword that is
computed from an open one is open (R250, R269, R317, R320, R321, R326, R349). -/
def putRow (s : State) (a mask val : Nat) (bad : RowBad) : State :=
  if mask = 0 then s
  else
    let new := newRow s a mask val
    let is := (upto 0 8).filter (hasLane mask 1024)
    let ls := is.map (fun i => a / 128 + i)
    let s0 := (upto 0 64).foldl (spoilPart mask bad a) (ls.foldl (settleTag { lines := [], parts := [] }) s)
    let put (s : State) (i : Nat) : State := s.putNat (a + 128 * i) 128 (new / 2 ^ (1024 * i) % 2 ^ 1024)
    let s1 := ((upto 0 64).filter (hasLane mask 128)).foldl (fun s q => reopen s (a / 16 + q)) (is.foldl put s0)
    { s1 with
      keyIds := tfilter (fun l => !ls.contains l) s1.keyIds
      tags := tfilter (fun l => !ls.contains l) s1.tags }

/-- A move writes a row of a subarray; a complement port stores the complement (R318). -/
def writeRow (s : State) (u row mask val : Nat) (bad : RowBad) : State :=
  let c := cellRow row
  putRow s (u * 2 ^ 20 + c.1 * 1024) mask (if c.2 then allLanes - val else val) bad

/-- A number of `n` bits shifted up by one; the topmost bit comes in at the bottom where `fill` says so. -/
def shlBits (n : Nat) (fill : Bool) (v : Nat) : Nat := v * 2 % 2 ^ n + (if fill then v / 2 ^ (n - 1) else 0)

/-- A number of `n` bits shifted down by one; the lowest bit comes in at the top where `fill` says so. -/
def shrBits (n : Nat) (fill : Bool) (v : Nat) : Nat := v / 2 + (if fill then v % 2 * 2 ^ (n - 1) else 0)

/-- Shift of lanes towards higher columns with its poison (R320). -/
def shlRow (fill : Bool) (v : Nat) (b : RowBad) : Nat × RowBad :=
  (shlBits 8192 fill v, b.or { p := shlBits 64 fill b.p, o := shlBits 64 fill b.o })

/-- Shift of lanes towards lower columns with its poison (R320). -/
def shrRow (fill : Bool) (v : Nat) (b : RowBad) : Nat × RowBad :=
  (shrBits 8192 fill v, b.or { p := shrBits 64 fill b.p, o := shrBits 64 fill b.o })

/-- The majority of three rows, bit by bit (R320). -/
def majRow (x y z : Nat) : Nat := (x &&& y) ||| (x &&& z) ||| (y &&& z)

/-- MAJ of a subarray: no row is checked (R320, R327). -/
def majStep (s : State) (u dst mask : Nat) : State :=
  let a (t : Nat) : Nat := u * 2 ^ 20 + t * 1024
  let m := majRow (rowBits s (a 1008)) (rowBits s (a 1009)) (rowBits s (a 1010))
  let p := ((rowBad s (a 1008)).or (rowBad s (a 1009))).or (rowBad s (a 1010))
  let s1 := [1008, 1009, 1010].foldl (fun s t => putRow s (a t) allLanes m p) s
  writeRow s1 u dst mask m p

/-- The write mask of a subarray (R320). -/
def VRun.mask (r : VRun) (u : Nat) : Nat := tget allLanes r.wmask u

/-- The effect of a word in one region subarray, a move between layers apart (R320). -/
def wordIn (r : VRun) (w : MoveW) (s : State) (u : Nat) : State :=
  let m := r.mask u
  match w.kind with
  | 1 => let x := readRow s u w.src; writeRow x.2 u w.dst m x.1.1 x.1.2
  | 2 => majStep s u w.dst m
  | 3 => let x := readRow s u w.src
         let y := shlRow (w.mod % 2 == 1) x.1.1 x.1.2
         writeRow x.2 u w.dst m y.1 y.2
  | 4 => let x := readRow s u w.src
         let y := shrRow (w.mod % 2 == 1) x.1.1 x.1.2
         writeRow x.2 u w.dst m y.1 y.2
  | _ => s

/-- The write masks after SETM or CLRM (R320). -/
def masksAfter (s : State) (r : VRun) (subs : List Nat) (kind : Nat) : Tab Nat :=
  if kind = 5 then subs.foldl (fun t u => tput allLanes t u (rowBits s (u * 2 ^ 20 + 1018 * 1024))) r.wmask
  else if kind = 6 then subs.foldl (fun t u => tput allLanes t u allLanes) r.wmask
  else r.wmask

/-- The subarrays of a launch in a layer. -/
def VOp.inLayer (o : VOp) (l : Nat) : List Nat := o.subs.filter (fun u => u / 4096 % 16 == l)

/-- A move between layers: each destination subarray takes the same one of the source layer (R320). -/
def xlyStep (r : VRun) (w : MoveW) (s : State) : State :=
  let sl := w.mod / 16
  let dl := w.mod % 16
  (r.op.inLayer dl).foldl (fun s u =>
    let x := readRow s (u - dl * 4096 + sl * 4096) w.src
    writeRow x.2 u w.dst (r.mask u) x.1.1 x.1.2) s

/-- The word at a place of the program as it is sent, every row field advanced (R322, R323). -/
def sentWord (r : VRun) (w : BitVec 32) : MoveW :=
  let k := mvKind w
  let stride : Int := match r.loopAt with
    | none => 0
    | some p => sInt 8 (mvMod (r.prog.getD p 0))
  let adv (f : Bool) (row : Nat) : Nat :=
    if f ∧ row < 1008 then ((row : Int) + (r.rep : Int) * stride + (r.iter : Int) * r.op.rstep).toNat else row
  { kind := k, dst := adv (dstField k) (mvDst w), src := adv (srcField k) (mvSrc w), mod := mvMod w, ix := r.count }

/-- The place after the word at `ix` (R322, R323). -/
def VRun.after (r : VRun) (w : BitVec 32) : VRun :=
  let n := { r with count := r.count + 1, ix := r.ix + 1 }
  match mvKind w with
  | 8 => { n with loopAt := some r.ix, rep := 0 }
  | 15 => { n with ix := 0, iter := r.iter + 1, sent := decide (r.op.iter ≤ r.iter + 1) }
  | _ =>
    match r.loopAt with
    | none => n
    | some p =>
      let l := r.prog.getD p 0
      if r.ix < p + mvSrc l then n
      else if r.rep < mvDst l then { n with ix := p + 1, rep := r.rep + 1 }
      else { n with loopAt := none, rep := 0 }

/-- The rows that the clearing steps write, in order (R318). -/
def clearRow (left : Nat) : Nat := [1020, 1019, 1014, 1012, 1011, 1010, 1009, 1008].getD (left - 1) 1008

/-- The next word of a launch (R335). -/
def nextWord (r : VRun) : Option (MoveW × VRun) :=
  if r.sent then none
  else if r.clear ≠ 0 then
    some ({ kind := 1, dst := clearRow r.clear, src := 1016, mod := 0, ix := r.count },
          { r with clear := r.clear - 1, count := r.count + 1 })
  else (r.prog[r.ix]?).map (fun w => (sentWord r w, r.after w))

/-- The path of a row of VZERO or VCLONE: 1 MV, 7 XLY, 0 the base-die row buffer (R344). -/
def rowPath (o : VOp) (p : Nat × Nat) : Nat :=
  match o.kind with
  | .zero => 1
  | _ => if p.1 / 1024 = p.2 / 1024 then 1 else if p.1 / 1024 % 4096 = p.2 / 1024 % 4096 then 7 else 0

/-- The next row word of VZERO or VCLONE; a row that takes the base-die row buffer uses no notch (R335, R344). -/
def nextRow (r : VRun) : Option (MoveW × VRun) :=
  match r.op.rows[r.count]? with
  | none => none
  | some p =>
    let k := rowPath r.op p
    if k = 0 then none
    else some ({ kind := k, dst := p.1, src := p.2, mod := p.2 / 2 ^ 22 % 16 * 16 + p.1 / 2 ^ 22 % 16, ix := r.count },
               { r with count := r.count + 1 })

/-- The layers that take a word of the running operation. -/
def wordLayers (o : VOp) (w : MoveW) : List Nat :=
  if o.isLaunch then setBitsOf o.lmask 16
  else if w.kind = 7 then [w.mod / 16, w.mod % 16] else [w.mod % 16]

/-- Every layer that the operation names is CURRENT (R335). -/
def allCurrent (t : Stack) (lmask : Nat) : Bool := (setBitsOf lmask 16).all (fun l => (t.layer l).st = .current)

/-- The sequencer sends up to `n` words, and stops while a named layer is 64 behind (R335, R336). -/
def sendWords (st : Nat) : Nat → State → State
  | 0, s => s
  | n + 1, s =>
    let t := s.stack st
    match t.veld.run with
    | none => s
    | some r =>
      if (setBitsOf r.op.lmask 16).any (fun l => 64 ≤ (t.layer l).fifo.length) then s
      else match (if r.op.isLaunch then nextWord r else nextRow r) with
        | none => s
        | some (w, r') =>
          let t1 := (wordLayers r.op w).foldl (fun t l => t.modLayer l (fun x => { x with fifo := x.fifo ++ [w] })) t
          sendWords st n (s.setStack st { t1 with veld := { t1.veld with run := some r' } })

/-- VELD_BROADCAST (R335, R336): one of the sequencer's notches, with up to 8 words. -/
def execEvVeldBroadcast (st : Nat) (s : State) : Out :=
  let t := s.stack st
  match t.veld.run with
  | none => .next s
  | some r =>
    if !stackRuns s st ∨ fld t.colalloc 0 7 = 0 ∨ !allCurrent t r.op.lmask then .next s else .next (sendWords st 8 s)

/-- The head of a layer's words. -/
def Layer.head? (x : Layer) : Option MoveW := x.fifo.head?
/-- A layer leaves its word without a step. -/
def Layer.skip (x : Layer) : Layer := { x with fifo := x.fifo.tail }
/-- A layer has executed its word. -/
def Layer.stepped (x : Layer) : Layer := { x with fifo := x.fifo.tail, steps := x.steps + 1 }

/-- The layers of an XLY stand at it together (R336). -/
def xlyMet (t : Stack) (w : MoveW) : Bool :=
  [w.mod / 16, w.mod % 16].all (fun l => match (t.layer l).head? with
    | none => false
    | some v => v.kind == 7 && v.ix == w.ix)

/-- A step of a launch in a layer. -/
def launchStep (s : State) (st layer : Nat) (r : VRun) (w : MoveW) : State :=
  if w.kind = 7 then
    if layer ≠ w.mod / 16 ∧ layer ≠ w.mod % 16 then s.modStack st (fun t => t.modLayer layer Layer.skip)
    else if !xlyMet (s.stack st) w then s
    else
      let s1 := xlyStep r w s
      s1.modStack st (fun t => { (t.modLayer (w.mod / 16) Layer.stepped).modLayer (w.mod % 16) Layer.stepped with
                                 veld := { t.veld with run := some { r with
                                   last := layer, kinds := tput 0 (tput 0 r.kinds (w.mod / 16) 0) (w.mod % 16) 0 } } })
  else
    let subs := r.op.inLayer layer
    let s1 := subs.foldl (wordIn r w) s
    s1.modStack st (fun t => { t.modLayer layer Layer.stepped with
      veld := { t.veld with run := some { r with
        last := layer, wmask := masksAfter s1 r subs w.kind, kinds := tput 0 r.kinds layer (if w.kind = 9 ∨ w.kind = 15 then w.kind else 0) } } })

/-- Writes one row of VZERO or VCLONE (R344). -/
def copyRow (o : VOp) (s : State) (p : Nat × Nat) : State :=
  match o.kind with
  | .zero => putRow s (p.1 * 1024) allLanes 0 RowBad.none
  | _ =>
    let x := readRow s (p.2 / 1024) (p.2 % 1024)
    putRow x.2 (p.1 * 1024) allLanes x.1.1 x.1.2

/-- A step of a row operation in a layer (R344). -/
def rowStep (s : State) (st layer : Nat) (r : VRun) (w : MoveW) : State :=
  if w.kind = 7 ∧ !xlyMet (s.stack st) w then s
  else
    let s1 := copyRow r.op s (w.dst, w.src)
    s1.modStack st (fun t =>
      { (wordLayers r.op w).foldl (fun t l => t.modLayer l Layer.stepped) t with
        veld := { t.veld with run := some { r with rowIx := r.rowIx + 1, last := layer } } })

/-- A step of an operation is progress of the harts that may have issued it: those of its context on its core (R399). -/
def opProgress (s : State) (o : VOp) : State :=
  if o.node.isSome then s
  else ((coreHarts o.core).filter (fun h => (s.hart h).live && (s.hart h).cid == o.cid)).foldl retire s

/-- A gap of a bank, between two steps of it: the number of steps before it (R336). -/
def gapAt (s : State) (st layer bank : Nat) : Option (VRun × Nat) :=
  let t := s.stack st
  match t.veld.run with
  | none => none
  | some r =>
    let n := stepsOf t r layer
    if stackRuns s st ∧ layer < 16 ∧ bank < 64 ∧ r.op.inBank (layer * 64 + bank) ∧ 0 < n ∧
        !bankOver t r (layer * 64 + bank) then some (r, n)
    else none

/-- When the refresh of number `k` of a bank falls due, as the free intervals of the operation give it (R336, log 79). -/
def dueAt (r : VRun) (bank : Nat) : Nat → Nat
  | 0 => r.start + Config.refreshEvery r.start bank 0
  | k + 1 => dueAt r bank k + Config.refreshEvery r.start bank (k + 1)

/-- The program of an operation holds an RPT (R336). -/
def VRun.hasRpt (r : VRun) : Bool := r.prog.any (fun w => mvKind w == 9)

/-- The next refresh of a bank goes into the gap that stands after `n` steps: it is due, the gap holds none yet, and an
operation with an RPT keeps it for the gap after one until its deadline, one interval later (R336). -/
def refreshGoes (s : State) (st layer bank : Nat) (r : VRun) (n : Nat) : Bool :=
  let lb := layer * 64 + bank
  let k := tget 0 r.refresh lb
  tget 0 r.refreshed lb != n && decide (dueAt r (1024 * st + lb) k ≤ s.time) &&
    (!r.hasRpt || tget 0 r.kinds layer == 9 || decide (dueAt r (1024 * st + lb) (k + 1) ≤ s.time))

/-- The arbitration setting lets a waiting access be served in the gap after `n` steps: under compute-first the gap follows
an RPT or an END, or the access has waited 64 of the bank's steps (R337). -/
def gapOpen (v : Veld) (r : VRun) (layer n : Nat) (a : GapAsk) : Bool :=
  v.balanced || tget 0 r.kinds layer != 0 || decide (a.since + 64 ≤ n)

/-- The access that the gap of a bank after `n` steps serves: the oldest that waits, where the setting lets it; none where the
gap has served one (R337). -/
def gapTaker (v : Veld) (r : VRun) (layer lb n : Nat) : Option GapAsk :=
  if tget 0 r.served lb = n then none
  else (r.asks.filter (fun a => a.bank == lb && !a.got)).find? (gapOpen v r layer n)

/-- A layer that is to execute a step owes one of its banks a refresh or an access that goes into the gap before it (R336,
R337). -/
def gapOwed (s : State) (st : Nat) (w : MoveW) (layer : Nat) : Bool :=
  (if w.kind = 7 then [w.mod / 16, w.mod % 16] else [layer]).any (fun l => (upto 0 64).any (fun b =>
    match gapAt s st l b with
    | none => false
    | some (r, n) => refreshGoes s st l b r n || (gapTaker (s.stack st).veld r l (l * 64 + b) n).isSome))

/-- The locks of the running operation have been held for 10 ms, which stops it at its next step boundary (R338). -/
def heldOut (s : State) (r : VRun) : Bool := decide (r.start + 10000000 ≤ s.clock)

/-- VELD_STEP (R320, R336, R338): a layer controller executes the word at its head, once a refresh and an access that go
before it are done. -/
def execEvVeldStep (st layer : Nat) (s : State) : Out :=
  let t := s.stack st
  match t.veld.run, (t.layer layer).head? with
  | some r, some w =>
    if !stackRuns s st ∨ heldOut s r ∨ 16 ≤ layer ∨ gapOwed s st w layer then .next s
    else if r.op.isLaunch then .next (launchStep (opProgress s r.op) st layer r w)
    else .next (rowStep (opProgress s r.op) st layer r w)
  | _, _ => .next s

/-- BASE_DIE_ROW_BUFFER_TRANSFER (R338, R344): the next row goes through the row buffer of the base die. -/
def execEvBaseDieRowBufferTransfer (st : Nat) (s : State) : Out :=
  let t := s.stack st
  match t.veld.run with
  | none => .next s
  | some r =>
    match r.op.rows[r.rowIx]? with
    | none => .next s
    | some p =>
      let pair : MoveW := { kind := 7, dst := 0, src := 0, mod := p.2 / 2 ^ 22 % 16 * 16 + p.1 / 2 ^ 22 % 16, ix := 0 }
      if !stackRuns s st ∨ heldOut s r ∨ r.op.isLaunch ∨ rowPath r.op p ≠ 0 ∨ r.count ≠ r.rowIx ∨ !allCurrent t r.op.lmask ∨
          gapOwed s st pair 0 then .next s
      else
        let s1 := copyRow r.op (opProgress s r.op) p
        .next (s1.modVeld st (fun v => { v with run := some { r with rowIx := r.rowIx + 1, count := r.count + 1 } }))

/-- BANK_REFRESH (R336): at most one falls between two consecutive steps of a bank. -/
def execEvBankRefresh (st layer bank : Nat) (s : State) : Out :=
  let lb := layer * 64 + bank
  match gapAt s st layer bank with
  | none => .next s
  | some (r, n) =>
    if !refreshGoes s st layer bank r n then .next s
    else .next (s.modVeld st (fun v => { v with run := some { r with
      refresh := tput 0 r.refresh lb (tget 0 r.refresh lb + 1), refreshed := tput 0 r.refreshed lb n } }))

/-- GAP_ACCESS (R337): the gap that stands at a bank serves the oldest access that waits there and that the setting lets use
it, one access to a gap, and the operation takes longer for it (R331, log 80). -/
def execEvGapAccess (st layer bank : Nat) (s : State) : Out :=
  let lb := layer * 64 + bank
  match gapAt s st layer bank with
  | none => .next s
  | some (r, n) =>
    match gapTaker (s.stack st).veld r layer lb n with
    | none => .next s
    | some a => .next (s.modVeld st (fun v => { v with run := some { r with
        gaps := tput 0 r.gaps lb (tget 0 r.gaps lb + 1), served := tput 0 r.served lb n
        asks := r.asks.map (fun b => if b = a then { b with got := true } else b) } }))

/-- What refreshes add in the slowest of some banks and every gap access in one of them (R331). -/
def gapTime (r : VRun) (lbs : List Nat) : Nat :=
  120 * (lbs.map (tget 0 r.refresh)).foldl Nat.max 0 + 48 * sumOf (lbs.map (tget 0 r.gaps))

/-- T of an operation in ns (R331, log 55): a launch's in the layer that finishes last. -/
def timeT (t : Stack) (r : VRun) : Nat :=
  if r.op.isLaunch then 48 * (t.layer r.last).steps + gapTime r (upto (64 * r.last) 64)
  else sumOf (r.op.rows.map (fun p => if rowPath r.op p = 0 then 112 else 48)) + gapTime r (upto 0 1024)

/-- The operation's node takes a state, unless it has reached a final one. -/
def endNode (s : State) (n : Nat) (st : NState) : State := if (s.nst n).final then s else setNodeState s n st

/-- VELD_OPERATION_COMPLETE (R335, R338): the operation, which its queue has held until now (log 106), leaves it; the locks
are released, and the timeline or the node advances. -/
def execEvVeldOperationComplete (st : Nat) (s : State) : Out :=
  let t := s.stack st
  match t.veld.run with
  | none => .next s
  | some r =>
    if !stackRuns s st ∨ heldOut s r ∨ !runOver t r ∨ !allCurrent t r.op.lmask then .next s
    else
      let s1 := (opProgress s r.op).modVeld st (fun v =>
        { v.modQueue r.q (fun q => { q with ops := q.ops.tail, lastT := timeT t r }) with run := none })
      .next (match r.op.node with
        | some n => endNode s1 n .done
        | none => s1.modTl (tlKey r.op.cid r.op.core 2) (fun x => x.complete r.op.num))

/-- An operation fails (R335, R338, R339): its queue is faulted and its timeline or node takes the fault. -/
def failOp (s : State) (st q : Nat) (op : VOp) (cause idx : Nat) : State :=
  let e : EngFault := { fword := faultWord cause 2 idx, va := op.va, pc := if cause = 0x0D then wd (op.mcoff + idx) else 0 }
  let s1 := s.modVeld st (fun v => v.modQueue q (fun x => { x with err := some e }))
  match op.node with
  | some n => failNode s1 n e.fword e.va
  | none => s1.modTl (tlKey op.cid op.core 2) (fun t => { t with err := some e })

/-- The operation at the head of a queue can start: the queue is not faulted, no other context's VRLOCK overlaps, and a
lock entry is free (R335, R340). -/
def canStart (v : Veld) (q : Nat) : Option VOp :=
  let k := v.queue q
  match k.ops with
  | [] => none
  | o :: _ =>
    let overlaps (l : VLock) : Bool :=
      l.subs.any (fun u => o.subs.contains u || o.rows.any (fun p => p.1 / 1024 == u || p.2 / 1024 == u))
    if k.err.isSome ∨ v.locks.any (fun e => e.2.cid != o.cid && overlaps e.2) ∨ 16 ≤ v.locks.length then none else some o

/-- The queue that the sequencer serves next, round-robin (R335). -/
def nextQueue (v : Veld) : Option (Nat × VOp) :=
  ((upto 1 4).map (fun k => (v.lastQ + k) % 4)).findSome? (fun q => (canStart v q).map (fun o => (q, o)))

/-- VELD_OPERATION_START (R335): validation, locks and cleaning, and the wake of sleeping layers. -/
def execEvVeldOperationStart (st : Nat) (s : State) : Out :=
  let v := (s.stack st).veld
  if !stackRuns s st ∨ v.run.isSome then .next s
  else match nextQueue v with
    | none => .next s
    | some (q, o) =>
      let s0 := s.modVeld st (fun v => { v with lastQ := q })
      let start (prog : List (BitVec 32)) : State :=
        let r : VRun :=
          { q := q, op := o, prog := prog, clear := 8, iter := 0, ix := 0, loopAt := none, rep := 0, count := 0,
            sent := false, wmask := [], refresh := [], refreshed := [], gaps := [], served := [], asks := [], kinds := [], rowIx := 0,
            start := s.clock, last := 0 }
        let s1 := cleanRows s0 o.subs o.rows
        let s2 := (setBitsOf o.lmask 16).foldl (wakeLayer st) s1
        s2.modStack st (fun t =>
          { (setBitsOf o.lmask 16).foldl (fun t l => t.modLayer l (fun x => { x with fifo := [], steps := 0 })) t with
            veld := { t.veld with run := some r } })
      if o.isLaunch then
        match validate s st o with
        | .error i => .next (failOp s0 st q o 0x0D i)
        | .ok prog => .next (start prog)
      else .next (start [])

/-- LOCK_TIME_OUT (R338): a lock held for 10 ms stops its operation; rows hold the results of the steps done. -/
def execEvLockTimeOut (st : Nat) (s : State) : Out :=
  let t := s.stack st
  match t.veld.run with
  | none => .next s
  | some r =>
    if !stackRuns s st ∨ !heldOut s r then .next s
    else
      let done := if r.op.isLaunch then ((setBitsOf r.op.lmask 16).map (fun l => (t.layer l).steps)).foldl Nat.max 0
        else r.rowIx
      let s1 := s.modStack st (fun t =>
        { (setBitsOf r.op.lmask 16).foldl (fun t l => t.modLayer l (fun x => { x with fifo := [] })) t with
          veld := { t.veld with run := none } })
      .next (failOp s1 st r.q r.op 0x0E done)

/-- The hart that held a lock takes its time-out trap at its next boundary, also where its band is suspended (R341). -/
def lockTrapAt (s : State) (st ent : Nat) (l : VLock) : State :=
  let put (x : Hart) : Hart := { x with lockTraps := x.lockTraps ++ [ent] }
  if (s.hart l.hart).live ∧ (s.hart l.hart).band = l.band then s.modHart l.hart put
  else s.modStack st (fun t => { t with slots := tmap (fun _ k =>
    if k.band = l.band then { k with harts := k.harts.map (fun e => if e.1 = l.hart then (e.1, put e.2) else e) } else k) t.slots })

/-- VRLOCK_TIME_OUT (R341). -/
def execEvVrlockTimeOut (st ent : Nat) (s : State) : Out :=
  match ((s.stack st).veld.locks.find? (fun e => e.1 == ent)).map (·.2) with
  | none => .next s
  | some l =>
    if s.clock < l.start + 10000000 then .next s
    else .next (lockTrapAt (s.modVeld st (fun v => { v with locks := tdel v.locks ent })) st ent l)

end Sys2Proof.Machine
end

