-- ==== Sys2Proof/Machine/Dispatch.lean ====
section
/-! DEFINITION. The meaning of every instruction and event: one arm per constructor. -/
namespace Sys2Proof.Machine

/-- Executes an instruction for the agent of the state, or an event. -/
def exec (i : Instr) (s : State) : Host.Outcome State Fault Refusal :=
  match i with
  | .nop => Sys2Proof.Machine.execNop s
  | .add d a b => Sys2Proof.Machine.execAdd d a b s
  | .sub d a b => Sys2Proof.Machine.execSub d a b s
  | .and d a b => Sys2Proof.Machine.execAnd d a b s
  | .or d a b => Sys2Proof.Machine.execOr d a b s
  | .xor d a b => Sys2Proof.Machine.execXor d a b s
  | .sll d a b => Sys2Proof.Machine.execSll d a b s
  | .srl d a b => Sys2Proof.Machine.execSrl d a b s
  | .sra d a b => Sys2Proof.Machine.execSra d a b s
  | .mul d a b => Sys2Proof.Machine.execMul d a b s
  | .mulh d a b => Sys2Proof.Machine.execMulh d a b s
  | .mulhn d a b => Sys2Proof.Machine.execMulhn d a b s
  | .div d a b => Sys2Proof.Machine.execDiv d a b s
  | .divn d a b => Sys2Proof.Machine.execDivn d a b s
  | .rem d a b => Sys2Proof.Machine.execRem d a b s
  | .remn d a b => Sys2Proof.Machine.execRemn d a b s
  | .min d a b => Sys2Proof.Machine.execMin d a b s
  | .max d a b => Sys2Proof.Machine.execMax d a b s
  | .minn d a b => Sys2Proof.Machine.execMinn d a b s
  | .maxn d a b => Sys2Proof.Machine.execMaxn d a b s
  | .slt d a b => Sys2Proof.Machine.execSlt d a b s
  | .sltn d a b => Sys2Proof.Machine.execSltn d a b s
  | .sel d a b c => Sys2Proof.Machine.execSel d a b c s
  | .clz d a => Sys2Proof.Machine.execClz d a s
  | .ctz d a => Sys2Proof.Machine.execCtz d a s
  | .popc d a => Sys2Proof.Machine.execPopc d a s
  | .brev d a => Sys2Proof.Machine.execBrev d a s
  | .bext d pos lenm a => Sys2Proof.Machine.execBext d pos lenm a s
  | .bins d pos lenm a => Sys2Proof.Machine.execBins d pos lenm a s
  | .addiTl2 d a imm => Sys2Proof.Machine.execAddiTl2 d a imm s
  | .addiTl3 d a imm => Sys2Proof.Machine.execAddiTl3 d a imm s
  | .andiTl2 d a imm => Sys2Proof.Machine.execAndiTl2 d a imm s
  | .andiTl3 d a imm => Sys2Proof.Machine.execAndiTl3 d a imm s
  | .oriTl2 d a imm => Sys2Proof.Machine.execOriTl2 d a imm s
  | .oriTl3 d a imm => Sys2Proof.Machine.execOriTl3 d a imm s
  | .xoriTl2 d a imm => Sys2Proof.Machine.execXoriTl2 d a imm s
  | .xoriTl3 d a imm => Sys2Proof.Machine.execXoriTl3 d a imm s
  | .sltiTl2 d a imm => Sys2Proof.Machine.execSltiTl2 d a imm s
  | .sltiTl3 d a imm => Sys2Proof.Machine.execSltiTl3 d a imm s
  | .slli d a n => Sys2Proof.Machine.execSlli d a n s
  | .srli d a n => Sys2Proof.Machine.execSrli d a n s
  | .srai d a n => Sys2Proof.Machine.execSrai d a n s
  | .liTl2 d imm => Sys2Proof.Machine.execLiTl2 d imm s
  | .liTl3 d imm => Sys2Proof.Machine.execLiTl3 d imm s
  | .lih d imm => Sys2Proof.Machine.execLih d imm s
  | .b t => Sys2Proof.Machine.execB t s
  | .bl d t => Sys2Proof.Machine.execBl d t s
  | .br d => Sys2Proof.Machine.execBr d s
  | .blr d a => Sys2Proof.Machine.execBlr d a s
  | .beq d a t => Sys2Proof.Machine.execBeq d a t s
  | .bne d a t => Sys2Proof.Machine.execBne d a t s
  | .blt d a t => Sys2Proof.Machine.execBlt d a t s
  | .bge d a t => Sys2Proof.Machine.execBge d a t s
  | .bltn d a t => Sys2Proof.Machine.execBltn d a t s
  | .bgen d a t => Sys2Proof.Machine.execBgen d a t s
  | .ldbTl2 d a off => Sys2Proof.Machine.execLdbTl2 d a off s
  | .ldbTl3 d a off => Sys2Proof.Machine.execLdbTl3 d a off s
  | .ldbzTl2 d a off => Sys2Proof.Machine.execLdbzTl2 d a off s
  | .ldbzTl3 d a off => Sys2Proof.Machine.execLdbzTl3 d a off s
  | .ldhTl2 d a off => Sys2Proof.Machine.execLdhTl2 d a off s
  | .ldhTl3 d a off => Sys2Proof.Machine.execLdhTl3 d a off s
  | .ldhzTl2 d a off => Sys2Proof.Machine.execLdhzTl2 d a off s
  | .ldhzTl3 d a off => Sys2Proof.Machine.execLdhzTl3 d a off s
  | .ldwTl2 d a off => Sys2Proof.Machine.execLdwTl2 d a off s
  | .ldwTl3 d a off => Sys2Proof.Machine.execLdwTl3 d a off s
  | .ldwzTl2 d a off => Sys2Proof.Machine.execLdwzTl2 d a off s
  | .ldwzTl3 d a off => Sys2Proof.Machine.execLdwzTl3 d a off s
  | .lddTl2 d a off => Sys2Proof.Machine.execLddTl2 d a off s
  | .lddTl3 d a off => Sys2Proof.Machine.execLddTl3 d a off s
  | .ldqTl2 d a off => Sys2Proof.Machine.execLdqTl2 d a off s
  | .ldqTl3 d a off => Sys2Proof.Machine.execLdqTl3 d a off s
  | .stbTl2 d a off => Sys2Proof.Machine.execStbTl2 d a off s
  | .stbTl3 d a off => Sys2Proof.Machine.execStbTl3 d a off s
  | .sthTl2 d a off => Sys2Proof.Machine.execSthTl2 d a off s
  | .sthTl3 d a off => Sys2Proof.Machine.execSthTl3 d a off s
  | .stwTl2 d a off => Sys2Proof.Machine.execStwTl2 d a off s
  | .stwTl3 d a off => Sys2Proof.Machine.execStwTl3 d a off s
  | .stdTl2 d a off => Sys2Proof.Machine.execStdTl2 d a off s
  | .stdTl3 d a off => Sys2Proof.Machine.execStdTl3 d a off s
  | .stqTl2 d a off => Sys2Proof.Machine.execStqTl2 d a off s
  | .stqTl3 d a off => Sys2Proof.Machine.execStqTl3 d a off s
  | .prefTl2 h a off => Sys2Proof.Machine.execPrefTl2 h a off s
  | .prefTl3 h a off => Sys2Proof.Machine.execPrefTl3 h a off s
  | .lda d sc sz a off => Sys2Proof.Machine.execLda d sc sz a off s
  | .stl d sc sz a off => Sys2Proof.Machine.execStl d sc sz a off s
  | .amoadd d b a sz sc => Sys2Proof.Machine.execAmoadd d b a sz sc s
  | .amoand d b a sz sc => Sys2Proof.Machine.execAmoand d b a sz sc s
  | .amoor d b a sz sc => Sys2Proof.Machine.execAmoor d b a sz sc s
  | .amoxor d b a sz sc => Sys2Proof.Machine.execAmoxor d b a sz sc s
  | .amomin d b a sz sc => Sys2Proof.Machine.execAmomin d b a sz sc s
  | .amomax d b a sz sc => Sys2Proof.Machine.execAmomax d b a sz sc s
  | .amoswap d b a sz sc => Sys2Proof.Machine.execAmoswap d b a sz sc s
  | .amocas d b c a sz sc => Sys2Proof.Machine.execAmocas d b c a sz sc s
  | .amocasq d b c a sc => Sys2Proof.Machine.execAmocasq d b c a sc s
  | .crrd d idx => Sys2Proof.Machine.execCrrd d idx s
  | .crwr d idx a => Sys2Proof.Machine.execCrwr d idx a s
  | .crset d idx a => Sys2Proof.Machine.execCrset d idx a s
  | .crclr d idx a => Sys2Proof.Machine.execCrclr d idx a s
  | .ecall => Sys2Proof.Machine.execEcall s
  | .ebrk => Sys2Proof.Machine.execEbrk s
  | .tret => Sys2Proof.Machine.execTret s
  | .yield => Sys2Proof.Machine.execYield s
  | .wfi => Sys2Proof.Machine.execWfi s
  | .drainst => Sys2Proof.Machine.execDrainst s
  | .ifence => Sys2Proof.Machine.execIfence s
  | .xinvPage psz a => Sys2Proof.Machine.execXinvPage psz a s
  | .xinvCtx => Sys2Proof.Machine.execXinvCtx s
  | .xinvRdt => Sys2Proof.Machine.execXinvRdt s
  | .xinvAll => Sys2Proof.Machine.execXinvAll s
  | .sptsw d a => Sys2Proof.Machine.execSptsw d a s
  | .tkill a => Sys2Proof.Machine.execTkill a s
  | .fence x => Sys2Proof.Machine.execFence x s
  | .svf x => Sys2Proof.Machine.execSvf x s
  | .setvl d q a => Sys2Proof.Machine.execSetvl d q a s
  | .setvli d q avl => Sys2Proof.Machine.execSetvli d q avl s
  | .vadd d x => Sys2Proof.Machine.execVadd d x s
  | .vsub d x => Sys2Proof.Machine.execVsub d x s
  | .vmul d x => Sys2Proof.Machine.execVmul d x s
  | .vmulh d x => Sys2Proof.Machine.execVmulh d x s
  | .vmin d x => Sys2Proof.Machine.execVmin d x s
  | .vmax d x => Sys2Proof.Machine.execVmax d x s
  | .vminn d x => Sys2Proof.Machine.execVminn d x s
  | .vmaxn d x => Sys2Proof.Machine.execVmaxn d x s
  | .vand d x => Sys2Proof.Machine.execVand d x s
  | .vor d x => Sys2Proof.Machine.execVor d x s
  | .vxor d x => Sys2Proof.Machine.execVxor d x s
  | .vsll d x => Sys2Proof.Machine.execVsll d x s
  | .vsrl d x => Sys2Proof.Machine.execVsrl d x s
  | .vsra d x => Sys2Proof.Machine.execVsra d x s
  | .vsadd d x => Sys2Proof.Machine.execVsadd d x s
  | .vssub d x => Sys2Proof.Machine.execVssub d x s
  | .vwmul d x => Sys2Proof.Machine.execVwmul d x s
  | .vwmacc d x => Sys2Proof.Machine.execVwmacc d x s
  | .vwmaccsn d x => Sys2Proof.Machine.execVwmaccsn d x s
  | .vnsra d x => Sys2Proof.Machine.execVnsra d x s
  | .vmseq d x => Sys2Proof.Machine.execVmseq d x s
  | .vmslt d x => Sys2Proof.Machine.execVmslt d x s
  | .vmsltn d x => Sys2Proof.Machine.execVmsltn d x s
  | .vfadd d x => Sys2Proof.Machine.execVfadd d x s
  | .vfsub d x => Sys2Proof.Machine.execVfsub d x s
  | .vfmul d x => Sys2Proof.Machine.execVfmul d x s
  | .vfma d x => Sys2Proof.Machine.execVfma d x s
  | .vfnma d x => Sys2Proof.Machine.execVfnma d x s
  | .vfmin d x => Sys2Proof.Machine.execVfmin d x s
  | .vfmax d x => Sys2Proof.Machine.execVfmax d x s
  | .vfdiv d x => Sys2Proof.Machine.execVfdiv d x s
  | .vfsqrt d x => Sys2Proof.Machine.execVfsqrt d x s
  | .vfexp2 d x => Sys2Proof.Machine.execVfexp2 d x s
  | .vfrcp d x => Sys2Proof.Machine.execVfrcp d x s
  | .vmfeq d x => Sys2Proof.Machine.execVmfeq d x s
  | .vmflt d x => Sys2Proof.Machine.execVmflt d x s
  | .vmfle d x => Sys2Proof.Machine.execVmfle d x s
  | .vfcvt d x => Sys2Proof.Machine.execVfcvt d x s
  | .vredsum d x => Sys2Proof.Machine.execVredsum d x s
  | .vredosum d x => Sys2Proof.Machine.execVredosum d x s
  | .vredmax d x => Sys2Proof.Machine.execVredmax d x s
  | .vredmin d x => Sys2Proof.Machine.execVredmin d x s
  | .vfredsum d x => Sys2Proof.Machine.execVfredsum d x s
  | .vfredosum d x => Sys2Proof.Machine.execVfredosum d x s
  | .vfredmax d x => Sys2Proof.Machine.execVfredmax d x s
  | .vslideup d x => Sys2Proof.Machine.execVslideup d x s
  | .vslidedn d x => Sys2Proof.Machine.execVslidedn d x s
  | .vperm d x => Sys2Proof.Machine.execVperm d x s
  | .vcompress d x => Sys2Proof.Machine.execVcompress d x s
  | .vexpand d x => Sys2Proof.Machine.execVexpand d x s
  | .vbcast d x => Sys2Proof.Machine.execVbcast d x s
  | .vext d x => Sys2Proof.Machine.execVext d x s
  | .vprefix d x => Sys2Proof.Machine.execVprefix d x s
  | .kand d a b => Sys2Proof.Machine.execKand d a b s
  | .kor d a b => Sys2Proof.Machine.execKor d a b s
  | .kxor d a b => Sys2Proof.Machine.execKxor d a b s
  | .knot d a => Sys2Proof.Machine.execKnot d a s
  | .kpopc d a => Sys2Proof.Machine.execKpopc d a s
  | .kfirst d a => Sys2Proof.Machine.execKfirst d a s
  | .kset d a => Sys2Proof.Machine.execKset d a s
  | .vldTl2 d x => Sys2Proof.Machine.execVldTl2 d x s
  | .vldTl3 d x off => Sys2Proof.Machine.execVldTl3 d x off s
  | .vstTl2 d x => Sys2Proof.Machine.execVstTl2 d x s
  | .vstTl3 d x off => Sys2Proof.Machine.execVstTl3 d x off s
  | .vldsTl2 d x => Sys2Proof.Machine.execVldsTl2 d x s
  | .vldsTl3 d x off => Sys2Proof.Machine.execVldsTl3 d x off s
  | .vstsTl2 d x => Sys2Proof.Machine.execVstsTl2 d x s
  | .vstsTl3 d x off => Sys2Proof.Machine.execVstsTl3 d x off s
  | .vlsegTl2 d x => Sys2Proof.Machine.execVlsegTl2 d x s
  | .vlsegTl3 d x off => Sys2Proof.Machine.execVlsegTl3 d x off s
  | .vssegTl2 d x => Sys2Proof.Machine.execVssegTl2 d x s
  | .vssegTl3 d x off => Sys2Proof.Machine.execVssegTl3 d x off s
  | .vgatherTl2 d x => Sys2Proof.Machine.execVgatherTl2 d x s
  | .vgatherTl3 d x off => Sys2Proof.Machine.execVgatherTl3 d x off s
  | .vscatterTl2 d x => Sys2Proof.Machine.execVscatterTl2 d x s
  | .vscatterTl3 d x off => Sys2Proof.Machine.execVscatterTl3 d x off s
  | .vgatherpTl2 d x => Sys2Proof.Machine.execVgatherpTl2 d x s
  | .vgatherpTl3 d x off => Sys2Proof.Machine.execVgatherpTl3 d x off s
  | .vscatterpTl2 d x => Sys2Proof.Machine.execVscatterpTl2 d x s
  | .vscatterpTl3 d x off => Sys2Proof.Machine.execVscatterpTl3 d x off s
  | .vstqTl2 d x => Sys2Proof.Machine.execVstqTl2 d x s
  | .vstqTl3 d x off => Sys2Proof.Machine.execVstqTl3 d x off s
  | .vldqTl2 d x => Sys2Proof.Machine.execVldqTl2 d x s
  | .vldqTl3 d x off => Sys2Proof.Machine.execVldqTl3 d x off s
  | .vstream d x => Sys2Proof.Machine.execVstream d x s
  | .vunbind d => Sys2Proof.Machine.execVunbind d s
  | .vwait d x => Sys2Proof.Machine.execVwait d x s
  | .mzero d => Sys2Proof.Machine.execMzero d s
  | .mopa d a b => Sys2Proof.Machine.execMopa d a b s
  | .mops d a b => Sys2Proof.Machine.execMops d a b s
  | .mopal d km1 => Sys2Proof.Machine.execMopal d km1 s
  | .mopax d k => Sys2Proof.Machine.execMopax d k s
  | .mgath d x => Sys2Proof.Machine.execMgath d x s
  | .mrd d x => Sys2Proof.Machine.execMrd d x s
  | .mwr d x => Sys2Proof.Machine.execMwr d x s
  | .mldTl2 d x => Sys2Proof.Machine.execMldTl2 d x s
  | .mldTl3 d x off => Sys2Proof.Machine.execMldTl3 d x off s
  | .mstTl2 d x => Sys2Proof.Machine.execMstTl2 d x s
  | .mstTl3 d x off => Sys2Proof.Machine.execMstTl3 d x off s
  | .fork x => Sys2Proof.Machine.execFork x s
  | .rdv => Sys2Proof.Machine.execRdv s
  | .copy b a => Sys2Proof.Machine.execCopy b a s
  | .copyx x => Sys2Proof.Machine.execCopyx x s
  | .tbinit a b => Sys2Proof.Machine.execTbinit a b s
  | .tbarrive a => Sys2Proof.Machine.execTbarrive a s
  | .tbexpect a b arv => Sys2Proof.Machine.execTbexpect a b arv s
  | .tbwait a b => Sys2Proof.Machine.execTbwait a b s
  | .tlwait d t b => Sys2Proof.Machine.execTlwait d t b s
  | .tlread d sel t => Sys2Proof.Machine.execTlread d sel t s
  | .cbar => Sys2Proof.Machine.execCbar s
  | .bbar => Sys2Proof.Machine.execBbar s
  | .glaunch d q a => Sys2Proof.Machine.execGlaunch d q a s
  | .nend => Sys2Proof.Machine.execNend s
  | .ljoin d off add a => Sys2Proof.Machine.execLjoin d off add a s
  | .lldt d off b a => Sys2Proof.Machine.execLldt d off b a s
  | .lflush => Sys2Proof.Machine.execLflush s
  | .colst d off b a => Sys2Proof.Machine.execColst d off b a s
  | .colwait d => Sys2Proof.Machine.execColwait d s
  | .colwaitLayers d a => Sys2Proof.Machine.execColwaitLayers d a s
  | .colwaitSeq d a => Sys2Proof.Machine.execColwaitSeq d a s
  | .discard a b => Sys2Proof.Machine.execDiscard a b s
  | .migr a b => Sys2Proof.Machine.execMigr a b s
  | .vlaunch d a => Sys2Proof.Machine.execVlaunch d a s
  | .vlaunchClear d => Sys2Proof.Machine.execVlaunchClear d s
  | .vrlock d a => Sys2Proof.Machine.execVrlock d a s
  | .vrunlock dv a => Sys2Proof.Machine.execVrunlock dv a s
  | .vzero d dv a b => Sys2Proof.Machine.execVzero d dv a b s
  | .vclone d dv a b c => Sys2Proof.Machine.execVclone d dv a b c s
  | .vquery d sel a => Sys2Proof.Machine.execVquery d sel a s
  | .evRegisterWrite r v => Sys2Proof.Machine.execEvRegisterWrite r v s
  | .evSfrqhWrite h v => Sys2Proof.Machine.execEvSfrqhWrite h v s
  | .evXschedWrite v => Sys2Proof.Machine.execEvXschedWrite v s
  | .evColallocWrite st v => Sys2Proof.Machine.execEvColallocWrite st v s
  | .evRouteTableWrite st ent v => Sys2Proof.Machine.execEvRouteTableWrite st ent v s
  | .evMeshPacketArrive p => Sys2Proof.Machine.execEvMeshPacketArrive p s
  | .evBackpressureSignal l vc on => Sys2Proof.Machine.execEvBackpressureSignal l vc on s
  | .evFabricRequestReceive r => Sys2Proof.Machine.execEvFabricRequestReceive r s
  | .evStoreFaultPost r => Sys2Proof.Machine.execEvStoreFaultPost r s
  | .evImpreciseDelivery h => Sys2Proof.Machine.execEvImpreciseDelivery h s
  | .evInterrupt h => Sys2Proof.Machine.execEvInterrupt h s
  | .evRingRecordRead st q => Sys2Proof.Machine.execEvRingRecordRead st q s
  | .evDispatch st => Sys2Proof.Machine.execEvDispatch st s
  | .evNodeAgingStep nd => Sys2Proof.Machine.execEvNodeAgingStep nd s
  | .evLaneReclaimDeadline bd => Sys2Proof.Machine.execEvLaneReclaimDeadline bd s
  | .evDrainDeadline h el => Sys2Proof.Machine.execEvDrainDeadline h el s
  | .evQuiesceMarkerReturn bd m => Sys2Proof.Machine.execEvQuiesceMarkerReturn bd m s
  | .evSlotSaveComplete bd => Sys2Proof.Machine.execEvSlotSaveComplete bd s
  | .evSlotRestoreComplete bd => Sys2Proof.Machine.execEvSlotRestoreComplete bd s
  | .evGraphCompletion g => Sys2Proof.Machine.execEvGraphCompletion g s
  | .evFatalRemoval cid => Sys2Proof.Machine.execEvFatalRemoval cid s
  | .evHangWatchdog bd => Sys2Proof.Machine.execEvHangWatchdog bd s
  | .evPowerControllerSample x => Sys2Proof.Machine.execEvPowerControllerSample x s
  | .evPowerReductionDeadline core => Sys2Proof.Machine.execEvPowerReductionDeadline core s
  | .evCopyGranule core => Sys2Proof.Machine.execEvCopyGranule core s
  | .evCopyxTile core => Sys2Proof.Machine.execEvCopyxTile core s
  | .evStreamRefill h grp => Sys2Proof.Machine.execEvStreamRefill h grp s
  | .evVeldOperationStart st => Sys2Proof.Machine.execEvVeldOperationStart st s
  | .evVeldBroadcast st => Sys2Proof.Machine.execEvVeldBroadcast st s
  | .evVeldStep st layer => Sys2Proof.Machine.execEvVeldStep st layer s
  | .evBankRefresh st layer bank => Sys2Proof.Machine.execEvBankRefresh st layer bank s
  | .evGapAccess st layer bank => Sys2Proof.Machine.execEvGapAccess st layer bank s
  | .evVeldOperationComplete st => Sys2Proof.Machine.execEvVeldOperationComplete st s
  | .evLockTimeOut st => Sys2Proof.Machine.execEvLockTimeOut st s
  | .evVrlockTimeOut st ent => Sys2Proof.Machine.execEvVrlockTimeOut st ent s
  | .evExchangeRound => Sys2Proof.Machine.execEvExchangeRound s
  | .evExchangeLineReceive idx deliver => Sys2Proof.Machine.execEvExchangeLineReceive idx deliver s
  | .evColEntryBroadcast st => Sys2Proof.Machine.execEvColEntryBroadcast st s
  | .evColReplay st => Sys2Proof.Machine.execEvColReplay st s
  | .evColResync st layer => Sys2Proof.Machine.execEvColResync st layer s
  | .evColFrameBoundary st => Sys2Proof.Machine.execEvColFrameBoundary st s
  | .evLayerPowered st layer => Sys2Proof.Machine.execEvLayerPowered st layer s
  | .evVwaitTimeOut h => Sys2Proof.Machine.execEvVwaitTimeOut h s
  | .evLldtTimeOut h => Sys2Proof.Machine.execEvLldtTimeOut h s
  | .evColwaitTimeOut h => Sys2Proof.Machine.execEvColwaitTimeOut h s
  | .evRequestResend r => Sys2Proof.Machine.execEvRequestResend r s
  | .evMeshLinkDown l => Sys2Proof.Machine.execEvMeshLinkDown l s
  | .evCxlLinkDown p => Sys2Proof.Machine.execEvCxlLinkDown p s
  | .evLinkDownPhaseEnd p st => Sys2Proof.Machine.execEvLinkDownPhaseEnd p st s
  | .evCxlLinkTrained p rate width => Sys2Proof.Machine.execEvCxlLinkTrained p rate width s
  | .evPctlEnWrite p en => Sys2Proof.Machine.execEvPctlEnWrite p en s
  | .evCxlMemRead addr => Sys2Proof.Machine.execEvCxlMemRead addr s
  | .evCxlMemWrite addr data => Sys2Proof.Machine.execEvCxlMemWrite addr data s
  | .evCxlCacheSnoop addr data => Sys2Proof.Machine.execEvCxlCacheSnoop addr data s
  | .evUnsupportedRequest p => Sys2Proof.Machine.execEvUnsupportedRequest p s
  | .evOutboundWindowWrite p ix x => Sys2Proof.Machine.execEvOutboundWindowWrite p ix x s
  | .evQtailWrite st q tail => Sys2Proof.Machine.execEvQtailWrite st q tail s
  | .evQueueDisable st q => Sys2Proof.Machine.execEvQueueDisable st q s
  | .evQueueEnable st q => Sys2Proof.Machine.execEvQueueEnable st q s
  | .evMbInstallContext pa => Sys2Proof.Machine.execEvMbInstallContext pa s
  | .evMbRemoveContext cid => Sys2Proof.Machine.execEvMbRemoveContext cid s
  | .evMbLoadKey key pa => Sys2Proof.Machine.execEvMbLoadKey key pa s
  | .evMbArbitration st bal => Sys2Proof.Machine.execEvMbArbitration st bal s
  | .evMbDebugHalt st => Sys2Proof.Machine.execEvMbDebugHalt st s
  | .evMbDebugRelease st => Sys2Proof.Machine.execEvMbDebugRelease st s
  | .evMbLifeCycleChange dst => Sys2Proof.Machine.execEvMbLifeCycleChange dst s
  | .evMbHealthRecord pa => Sys2Proof.Machine.execEvMbHealthRecord pa s
  | .evPclampWrite host v => Sys2Proof.Machine.execEvPclampWrite host v s
  | .evReset => Sys2Proof.Machine.execEvReset s
  | .evBootImageVerify ok => Sys2Proof.Machine.execEvBootImageVerify ok s
  | .evWipeComplete => Sys2Proof.Machine.execEvWipeComplete s
  | .evFabricResponseReceive r => Sys2Proof.Machine.execEvFabricResponseReceive r s
  | .evBaseDieRowBufferTransfer st => Sys2Proof.Machine.execEvBaseDieRowBufferTransfer st s
  | .evDebuggerArm h on => Sys2Proof.Machine.execEvDebuggerArm h on s

end Sys2Proof.Machine
end

