-- ==== Sys2Proof/Machine/Turn.lean ====
section
/-! DEFINITION. The turn that a step takes: the first of the schedule, or the turn of the current agent (log 4). -/
namespace Sys2Proof.Machine

/-- An event of the table: it has no encoding. -/
def isEvent (i : Instr) : Bool := (encode i).isNone

/-- The turn at the head of the schedule, or that of the current agent: an instruction with the state before it, or the
outcome of a turn that executes none. -/
def nextTurn (s : State) : Except Out (Instr × State) :=
  match s.sched with
  | [] => agentTurn s s.agent.base
  | .run a :: r => agentTurn { s with sched := r, agent := a } a.base
  | .defer h :: r => hartTurn { s with sched := r, agent := .hart h } h .defer
  | .ahead h :: r => hartTurn { s with sched := r, agent := .hart h } h .ahead
  | .post h :: r => hartTurn { s with sched := r, agent := .hart h } h .post
  | .event i :: r => if isEvent i then .ok (i, { s with sched := r }) else .error (.next { s with sched := r })

end Sys2Proof.Machine
end

