-- ==== Sys2Proof/Machine/Step.lean ====
section
/-! DEFINITION. The step of the part: time passes, the turn is taken, and its instruction or event is executed. -/
namespace Sys2Proof.Machine

/-- One step: the turn of `nextTurn` after time has passed; its instruction or event has the meaning of `exec`. -/
def step (s : State) : Host.Outcome State Fault Refusal :=
  match nextTurn (passTime s) with
  | .error o => o
  | .ok (i, t) => exec i t

/-- The state with one instruction where the next step fetches: a part in READY with one hart, whose code line holds
the instruction of a table word (log 2, log 7). -/
def State.withFetchWord (s : State) (nbits w : Nat) : State := (wordState s).putBytes wordAt (wordLine nbits w)

end Sys2Proof.Machine
end

