-- ==== Sys2Proof/Safety.lean ====
section
/-! DEFINITION. What a safe run is: no step of it ends in a fault or a refusal. -/
namespace Sys2Proof

/-- The state after `n` steps, where each answers a next state. -/
def runSteps (s : Machine.State) : Nat → Option Machine.State
  | 0 => some s
  | n + 1 =>
    match Machine.step s with
    | .next t => runSteps t n
    | .fault _ => none
    | .refused _ => none

/-- A run of `n` steps meets no fault and no refusal. -/
def Safe (s : Machine.State) (n : Nat) : Prop := (runSteps s n).isSome = true

end Sys2Proof
end

