-- ==== Sys2Proof/Certificates/Slice0/Obligations.lean ====
section
/-! DEFINITION. The statements for the provers, and the words they are said in: what completion means, the frames, and
the results that the rules of the spec give. -/
namespace Sys2Proof.Obl
open Sys2Proof.Machine

/-- The part is as it was but for its harts, and every hart but `h` is as it was. -/
def OnlyHart (s t : State) (h : Nat) : Prop :=
  { t with harts := s.harts } = s ∧ ∀ k, k ≠ h → t.hart k = s.hart k

/-- Every byte of memory reads as it did. -/
def MemSame (s t : State) : Prop := ∀ a, t.byteAt a = s.byteAt a

/-- A hart has gone past a scalar instruction: the program counter is at the next instruction, and nothing changed but
scalar registers, a wait that has ended and the progress clock. -/
def Past (x y : Hart) : Prop :=
  y.pc = nextPC x.pc x.nh ∧ { y with pc := x.pc, s := x.s, wait := x.wait, retiredAt := x.retiredAt } = x

/-- Register `d` holds `v`, s0 excepted, which reads zero; every other register is as it was. -/
def Wrote (x y : Hart) (d : SReg) (v : W) : Prop :=
  y.rd d = (if d.val = 0 then 0 else v) ∧ ∀ n, n ≠ d → y.rd n = x.rd n

/-- Every scalar register is as it was. -/
def SameRegs (x y : Hart) : Prop := ∀ n, y.rd n = x.rd n

/-- The scalar instruction `i` of hart `h` completes, changes no other part of the machine, and writes `v` to `d`. -/
def ScalarResult (s : State) (h : Nat) (i : Instr) (d : SReg) (v : W) : Prop :=
  ∃ t, exec i s = .next t ∧ OnlyHart s t h ∧ Past (s.hart h) (t.hart h) ∧ Wrote (s.hart h) (t.hart h) d v

/-- The scalar instruction `i` of hart `h` completes and leaves everything but the program counter. -/
def ScalarNothing (s : State) (h : Nat) (i : Instr) : Prop :=
  ∃ t, exec i s = .next t ∧ OnlyHart s t h ∧ Past (s.hart h) (t.hart h) ∧ SameRegs (s.hart h) (t.hart h)

/-- Zeros before the first set bit from the top; 64 for zero. -/
def leadZeros (a : W) : Nat := (List.range 64).findIdx (fun i => a.getMsbD i)
/-- Zeros before the first set bit from the bottom; 64 for zero. -/
def trailZeros (a : W) : Nat := (List.range 64).findIdx (fun i => a.getLsbD i)
/-- How many bits are set. -/
def ones (a : W) : Nat := ((List.range 64).filter (fun i => a.getLsbD i)).length

/-- Destination and result of the scalar arithmetic (R142 to R148), from the registers of the hart. -/
def aluOf (x : Hart) : Instr → Option (SReg × W)
  | .add d a b => some (d, x.rd a + x.rd b)
  | .sub d a b => some (d, x.rd a - x.rd b)
  | .and d a b => some (d, x.rd a &&& x.rd b)
  | .or d a b => some (d, x.rd a ||| x.rd b)
  | .xor d a b => some (d, x.rd a ^^^ x.rd b)
  | .sll d a b => some (d, x.rd a <<< ((x.rd b).toNat % 64))
  | .srl d a b => some (d, x.rd a >>> ((x.rd b).toNat % 64))
  | .sra d a b => some (d, (x.rd a).sshiftRight ((x.rd b).toNat % 64))
  | .mul d a b => some (d, x.rd a * x.rd b)
  | .mulh d a b => some (d, ((x.rd a).signExtend 128 * (x.rd b).signExtend 128).extractLsb' 64 64)
  | .mulhn d a b => some (d, ((x.rd a).setWidth 128 * (x.rd b).setWidth 128).extractLsb' 64 64)
  | .div d a b => some (d, if x.rd b = 0 then BitVec.allOnes 64 else (x.rd a).sdiv (x.rd b))
  | .divn d a b => some (d, if x.rd b = 0 then BitVec.allOnes 64 else (x.rd a).udiv (x.rd b))
  | .rem d a b => some (d, if x.rd b = 0 then x.rd a else (x.rd a).srem (x.rd b))
  | .remn d a b => some (d, if x.rd b = 0 then x.rd a else (x.rd a).umod (x.rd b))
  | .min d a b => some (d, if (x.rd a).toInt ≤ (x.rd b).toInt then x.rd a else x.rd b)
  | .max d a b => some (d, if (x.rd b).toInt ≤ (x.rd a).toInt then x.rd a else x.rd b)
  | .minn d a b => some (d, if (x.rd a).toNat ≤ (x.rd b).toNat then x.rd a else x.rd b)
  | .maxn d a b => some (d, if (x.rd b).toNat ≤ (x.rd a).toNat then x.rd a else x.rd b)
  | .slt d a b => some (d, if (x.rd a).toInt < (x.rd b).toInt then 1 else 0)
  | .sltn d a b => some (d, if (x.rd a).toNat < (x.rd b).toNat then 1 else 0)
  | .sel d a b c => some (d, if x.rd c ≠ 0 then x.rd a else x.rd b)
  | .clz d a => some (d, wd (leadZeros (x.rd a)))
  | .ctz d a => some (d, wd (trailZeros (x.rd a)))
  | .popc d a => some (d, wd (ones (x.rd a)))
  | .brev d a => some (d, (x.rd a).reverse)
  | .bext d pos lenm a => some (d, wd ((x.rd a).toNat / 2 ^ pos.toNat % 2 ^ (lenm.toNat + 1)))
  | .bins d pos lenm a =>
    let hi := 2 ^ (pos.toNat + lenm.toNat + 1)
    some (d, wd ((x.rd d).toNat % 2 ^ pos.toNat + (x.rd a).toNat % 2 ^ (lenm.toNat + 1) * 2 ^ pos.toNat +
      (x.rd d).toNat / hi * hi))
  | .addiTl2 d a imm => some (d, x.rd a + imm.signExtend 64)
  | .addiTl3 d a imm => some (d, x.rd a + imm.signExtend 64)
  | .andiTl2 d a imm => some (d, x.rd a &&& imm.signExtend 64)
  | .andiTl3 d a imm => some (d, x.rd a &&& imm.signExtend 64)
  | .oriTl2 d a imm => some (d, x.rd a ||| imm.signExtend 64)
  | .oriTl3 d a imm => some (d, x.rd a ||| imm.signExtend 64)
  | .xoriTl2 d a imm => some (d, x.rd a ^^^ imm.signExtend 64)
  | .xoriTl3 d a imm => some (d, x.rd a ^^^ imm.signExtend 64)
  | .sltiTl2 d a imm => some (d, if (x.rd a).toInt < imm.toInt then 1 else 0)
  | .sltiTl3 d a imm => some (d, if (x.rd a).toInt < imm.toInt then 1 else 0)
  | .slli d a n => some (d, x.rd a <<< n.toNat)
  | .srli d a n => some (d, x.rd a >>> n.toNat)
  | .srai d a n => some (d, (x.rd a).sshiftRight n.toNat)
  | .liTl2 d imm => some (d, imm.signExtend 64)
  | .liTl3 d imm => some (d, imm.signExtend 64)
  | .lih d imm => some (d, wd (imm.toNat * 2 ^ 32 + (x.rd d).toNat % 2 ^ 32))
  | _ => none

/-- The conditional branches (R151): registers, target field and whether the branch is taken. -/
def condOf (x : Hart) : Instr → Option (BitVec 26 × Bool)
  | .beq d a t => some (t, decide (x.rd d = x.rd a))
  | .bne d a t => some (t, decide (x.rd d ≠ x.rd a))
  | .blt d a t => some (t, decide ((x.rd d).toInt < (x.rd a).toInt))
  | .bge d a t => some (t, decide ((x.rd a).toInt ≤ (x.rd d).toInt))
  | .bltn d a t => some (t, decide ((x.rd d).toNat < (x.rd a).toNat))
  | .bgen d a t => some (t, decide ((x.rd a).toNat ≤ (x.rd d).toNat))
  | _ => none

/-- The target of a branch (R85): the line of the branch plus LOFF lines, slot SLOT. -/
def branchTarget (pc : W) (t : BitVec 26) : W :=
  BitVec.ofInt 64 ((pc.toNat / 64 * 64 : Nat) + sInt 20 (t.toNat / 32) * 64 + (t.toNat % 32 * 2 : Nat))

/-- A hart has gone to `pc` by a branch: nothing else changed but scalar registers and the progress clock. -/
def GoneTo (x y : Hart) (pc : W) : Prop :=
  y.pc = pc ∧ { y with pc := x.pc, s := x.s, retiredAt := x.retiredAt } = x

/-- The branch `i` of hart `h` completes at `pc`; `link` is the link register it writes. -/
def BranchResult (s : State) (h : Nat) (i : Instr) (pc : W) (link : Option SReg) : Prop :=
  ∃ t, exec i s = .next t ∧ OnlyHart s t h ∧ GoneTo (s.hart h) (t.hart h) pc ∧
    match link with
    | none => SameRegs (s.hart h) (t.hart h)
    | some d => Wrote (s.hart h) (t.hart h) d (nextPC (s.hart h).pc (s.hart h).nh)

/-- A register target that is an instruction slot (R85, R150): an even address with slot 1 to 31. -/
def goodTarget (v : W) : Bool := v.toNat % 2 == 0 && v.toNat / 2 % 32 != 0

end Sys2Proof.Obl

open Sys2Proof Sys2Proof.Machine Sys2Proof.Obl

/-- NOP, YIELD and the prefetches change nothing but the program counter, and the all-zero head is NOP (R93, R157, R177). -/
def Obligations.HintsOnlyAdvance : Prop :=
  decodeEnc { tl := 0, op := 0, d := 0, tail := 0 } = some .nop ∧
  ∀ (s : State) (h : Nat) (i : Instr), s.agent = .hart h →
    (i = .nop ∨ i = .yield ∨ (∃ n a o, i = .prefTl2 n a o) ∨ (∃ n a o, i = .prefTl3 n a o)) → ScalarNothing s h i

/-- The scalar arithmetic writes the result of R142 to R148 to its destination and changes nothing else; s0 discards
(R86). -/
def Obligations.ScalarArithmetic : Prop :=
  ∀ (s : State) (h : Nat) (i : Instr) (d : SReg) (v : W), s.agent = .hart h → aluOf (s.hart h) i = some (d, v) →
    ScalarResult s h i d v

/-- Branches of a hart (R84, R85, R149 to R151): where they go, the link, and nothing else. -/
def Obligations.BranchesGo : Prop :=
  ∀ (s : State) (h : Nat), s.agent = .hart h →
    let x := s.hart h
    (∀ t, BranchResult s h (.b t) (branchTarget x.pc t) none) ∧
    (∀ d t, BranchResult s h (.bl d t) (branchTarget x.pc t) (some d)) ∧
    (∀ d, goodTarget (x.rd d) = true → BranchResult s h (.br d) (x.rd d) none) ∧
    (∀ d a, goodTarget (x.rd a) = true → BranchResult s h (.blr d a) (x.rd a) (some d)) ∧
    (∀ i t c, condOf x i = some (t, c) →
      BranchResult s h i (if c then branchTarget x.pc t else nextPC x.pc x.nh) none)

namespace Sys2Proof.Obl
open Sys2Proof.Machine

/-- The level that handles a cause (R386, R387). -/
def targetOf (x : Hart) (code : Nat) : Level := if x.level = .m then .m else if code = 0x12 then .m else .s

/-- The handler address of that level (R387). -/
def handlerOf (s : State) (h code : Nat) : W :=
  if targetOf (s.hart h) code = .m then (s.hart h).mentry else pcField (s.ctx (s.hart h).cid).tvec

/-- A trap of this cause can be taken and is not nested at its own level (R387). -/
def CanTrap (s : State) (h code : Nat) : Prop :=
  handlerOf s h code ≠ 0 ∧ ¬((s.hart h).inHandler = true ∧ targetOf (s.hart h) code = (s.hart h).level)

/-- TSTAT as TakeTrap saves it for a trap without a queue image (R385, R387). -/
def SavedStatus (x : Hart) (w : W) : Prop :=
  fld w 63 1 = fld x.vtype 63 1 ∧ fld w 30 18 = fld x.vl 0 18 ∧ fld w 22 8 = fld x.vtype 0 8 ∧
    fld w 8 1 = fld x.hstat 8 1 ∧ fld w 3 1 = fld x.hstat 0 1 ∧ fld w 1 2 = fld x.hstat 1 2 ∧
    fld w 48 15 = 0 ∧ fld w 9 13 = 0 ∧ fld w 4 4 = 0 ∧ fld w 0 1 = 0

/-- Hart `h` has taken a precise scalar trap by TakeTrap of R387: the saved registers, the level, the handler's address,
and nothing else. A queue image held for code below is dropped where the handler is at S. -/
def Trapped (s t : State) (h code : Nat) (tval epc : W) : Prop :=
  let x := s.hart h
  let y := t.hart h
  OnlyHart s t h ∧ y.pc = handlerOf s h code ∧ y.tcause = wd code ∧ y.tval = tval ∧ y.tepc = wd (fld epc 0 57) ∧ y.tidx = 0 ∧
    SavedStatus x y.tstat ∧ fld y.hstat 0 1 = 1 ∧ fld y.hstat 1 2 = (targetOf x code).code ∧
    fld y.hstat 3 61 = fld x.hstat 3 61 ∧
    (if targetOf x code = .m then
        y.mframe = { hstat := x.hstat, tcause := x.tcause, tval := x.tval, tepc := x.tepc, tstat := x.tstat,
                     tidx := x.tidx, valid := true } ∧ y.image = x.image
      else y.mframe = x.mframe ∧ y.image = none) ∧
    { y with pc := x.pc, nh := x.nh, tcause := x.tcause, tval := x.tval, tepc := x.tepc, tstat := x.tstat,
             tidx := x.tidx, hstat := x.hstat, mframe := x.mframe, image := x.image, wait := x.wait, vecNo := x.vecNo } = x

/-- Hart `h` has taken a scalar trap inside a handler of the level that handles it (R387): TCAUSE, TVAL and HSTAT.NEST
alone of its trap registers change, the hart is at the handler again, and nothing else has changed. -/
def Nested (s t : State) (h code : Nat) (tval : W) : Prop :=
  let x := s.hart h
  let y := t.hart h
  OnlyHart s t h ∧ y.pc = handlerOf s h code ∧ y.tcause = wd code ∧ y.tval = tval ∧ fld y.hstat 5 1 = 1 ∧
    fld y.hstat 0 5 = fld x.hstat 0 5 ∧ fld y.hstat 6 58 = fld x.hstat 6 58 ∧
    { y with pc := x.pc, nh := x.nh, tcause := x.tcause, tval := x.tval, hstat := x.hstat, wait := x.wait,
             vecNo := x.vecNo } = x

/-- A trap of this cause can be taken and is the first that is nested at its own level (R387). -/
def CanNest (s : State) (h code : Nat) : Prop :=
  handlerOf s h code ≠ 0 ∧ (s.hart h).inHandler = true ∧ targetOf (s.hart h) code = (s.hart h).level ∧
    fld (s.hart h).hstat 5 1 = 0

/-- The harts of a context have been steered to EXITV at level S with their grants and queues gone, outside any handler and
with a fatal code and TVAL; the context is no longer installed and has no unbacked line and no late frame (R71, R368, R398). -/
def RemovedFrom (s t : State) (cid code : Nat) (va : W) : Prop :=
  (t.ctx cid).installed = false ∧ (t.ctx cid).ubLines = [] ∧ (t.ctx cid).frames = [] ∧ ∀ h ∈ s.ctxHarts cid,
    let y := t.hart h
    y.pc = pcField (s.ctx cid).exitv ∧ y.tcause = wd (2 ^ 63 + code) ∧ y.tval = va ∧ y.cur = 0 ∧ y.vl = 0 ∧ y.vq = [] ∧
      y.image = none ∧ fld y.tstat 11 1 = 0 ∧ fld y.hstat 0 1 = 0 ∧ fld y.hstat 5 1 = 0 ∧ fld y.hstat 1 2 = 1

/-- A removal of the context steers its harts now: it has an exit routine, and no debug halt holds a hart of it (R71,
R398, R403). -/
def Leaves (s : State) (cid : Nat) : Prop :=
  pcField (s.ctx cid).exitv ≠ 0 ∧ ∀ h ∈ s.ctxHarts cid, (s.stack (h / 32)).halted = false

/-- The scalar instruction `i` of hart `h` takes a precise trap at itself. -/
def TrapsAt (s : State) (h : Nat) (i : Instr) (code : Nat) (tval : W) : Prop :=
  ∃ t, exec i s = .next t ∧ Trapped s t h code tval (s.hart h).pc

/-- TVAL of an illegal-instruction trap: the head in bits 15:0 and the tail above it (R95). -/
def wordOf (i : Instr) : W :=
  match encode i with
  | none => 0
  | some e => wd (e.head + e.tail * 65536)

/-- A TSTAT that passes the checks of R389: no reserved bit, a level that exists and is not above the hart's, and a count
of queue entries that the held image has. -/
def GoodStatus (x : Hart) : Prop :=
  let t := x.tstat
  fld t 48 15 = 0 ∧ fld t 16 6 = 0 ∧ fld t 9 2 = 0 ∧ fld t 4 4 = 0 ∧ fld t 0 1 = 0 ∧
    fld t 1 2 ≠ 2 ∧ fld t 1 2 ≤ x.level.code ∧
    (fld t 11 1 = 1 → 1 ≤ fld t 12 4 ∧ fld t 12 4 ≤ 8 ∧ ∃ l, x.image = some l ∧ fld t 12 4 ≤ l.length)

/-- HSTAT after a TRET without a machine frame (R389). -/
def RestoredHstat (x : Hart) (w : W) : Prop :=
  let t := x.tstat
  fld w 0 1 = fld t 3 1 ∧ fld w 1 2 = fld t 1 2 ∧ fld w 8 1 = fld t 8 1 ∧
    fld w 5 1 = (if fld t 3 1 = 0 then 0 else fld x.hstat 5 1) ∧
    fld w 3 2 = fld x.hstat 3 2 ∧ fld w 6 2 = fld x.hstat 6 2 ∧ fld w 9 55 = fld x.hstat 9 55

/-- What every TRET restores (R389): VTYPE and VL from TSTAT, the resume point, and the queue that it reissues, whose
head starts at the element that TIDX named where a machine frame reloads TIDX. Strips that no held instruction has popped
are forgotten (R229). -/
def Returned (x y : Hart) : Prop :=
  let t := x.tstat
  let qi := fld t 11 1 = 1
  y.vtype = wd (fld t 63 1 * 2 ^ 63 + fld t 22 8) ∧ y.vl = wd (fld t 30 18) ∧
    y.pc = (if qi then x.resumePc else pcField x.tepc) ∧
    (if qi then
      let l := (x.image.getD []).take (fld t 12 4)
      let start := if x.level = .m ∧ x.mframe.valid = true then some (fld x.tidx 0 18) else none
      y.vq.tail = l.tail ∧ y.vq.head? = l.head?.map fun e => { e with start := start }
    else y.vq = x.vq) ∧
    y.image = (if qi then none else x.image) ∧
    { y with vtype := x.vtype, vl := x.vl, pc := x.pc, nh := x.nh, vq := x.vq, image := x.image, tstat := x.tstat,
             hstat := x.hstat, tcause := x.tcause, tval := x.tval, tepc := x.tepc, tidx := x.tidx, mframe := x.mframe,
             retiredAt := x.retiredAt, popped := x.popped } = x

/-- No access of the hart is on the fabric, and no window write of it to registers waits (R165, R238). -/
def NoPosted (s : State) (h : Nat) : Prop := (∀ e ∈ s.reqs, e.2.src ≠ h) ∧ ∀ w ∈ s.winParts, w.who ≠ h

/-- The table of R89: index, read level and write level, where a dash is none. -/
def crTable : List (Nat × Level × Option Level) :=
  [(0x000, .n, none), (0x001, .n, none), (0x002, .n, none), (0x003, .n, some .n), (0x004, .n, some .n),
   (0x005, .n, some .n), (0x006, .n, some .n), (0x010, .n, some .s), (0x011, .s, some .s), (0x012, .s, some .s),
   (0x013, .s, some .s), (0x014, .s, some .s), (0x015, .s, some .s), (0x016, .s, some .s), (0x017, .s, some .s),
   (0x020, .s, none), (0x021, .s, some .m), (0x022, .s, some .m), (0x023, .n, none), (0x028, .s, some .s),
   (0x029, .s, none), (0x030, .n, none), (0x031, .n, none), (0x032, .n, none), (0x033, .n, none), (0x038, .n, some .m),
   (0x039, .n, none), (0x03A, .n, some .m), (0x03B, .n, some .n), (0x040, .s, some .m), (0x041, .s, some .m),
   (0x048, .n, none), (0x049, .n, none), (0x050, .n, none), (0x051, .n, none), (0x052, .n, none), (0x053, .n, none),
   (0x058, .n, none), (0x059, .n, none)]

/-- The entry of an index in the table of R89. -/
def crEntry (idx : Nat) : Option (Nat × Level × Option Level) := crTable.find? (fun e => e.1 == idx)

/-- The level may read the register (R89). -/
def mayRead (l : Level) (idx : Nat) : Prop := ∃ e, crEntry idx = some e ∧ e.2.1.code ≤ l.code
/-- The level may write the register (R89, R171): it may read it too. -/
def mayWrite (l : Level) (idx : Nat) : Prop := mayRead l idx ∧ ∃ e w, crEntry idx = some e ∧ e.2.2 = some w ∧ w.code ≤ l.code

/-- FFLAGS and SATF wait for the vector queue (R110, R172). -/
def crReady (x : Hart) (idx : Nat) : Prop := idx = 0x005 ∨ idx = 0x006 → x.vq = []

/-- The control register that index `idx` names, as hart `h` reads it (R15, R16, R89, R172, R401). -/
def crValue (s : State) (h : Nat) : Nat → Option W
  | 0x000 => some (s.hart h).vtype
  | 0x001 => some (s.hart h).vl
  | 0x002 => some (wd ((if (s.hart h).rcl then 2 ^ 24 else 0) + (s.hart h).req % 256 * 2 ^ 16 +
      (s.hart h).next % 256 * 2 ^ 8 + (s.hart h).cur % 256))
  | 0x003 => some (s.hart h).mfc
  | 0x004 => some (s.hart h).fxrm
  | 0x005 => some (s.hart h).satf
  | 0x006 => some (s.hart h).fflags
  | 0x010 => some (s.hart h).hstat
  | 0x011 => some (s.ctx (s.hart h).cid).tvec
  | 0x012 => some (s.hart h).tcause
  | 0x013 => some (s.hart h).tval
  | 0x014 => some (s.hart h).tepc
  | 0x015 => some (s.hart h).tstat
  | 0x016 => some (s.hart h).tidx
  | 0x017 => some (s.ctx (s.hart h).cid).exitv
  | 0x020 => some (s.ctx (s.hart h).cid).spt
  | 0x021 => some (s.ctx (s.hart h).cid).vptb
  | 0x022 => some (s.ctx (s.hart h).cid).rdtb
  | 0x023 => some (wd ((s.hart h).cid % 65536))
  | 0x028 => some (s.core (h / 8)).sfrqh
  | 0x030 => some (wd (s.tl (tlKey (s.hart h).cid (h / 8) 0)).cnt)
  | 0x031 => some (wd (s.tl (tlKey (s.hart h).cid (h / 8) 1)).cnt)
  | 0x032 => some (wd (s.tl (tlKey (s.hart h).cid (h / 8) 2)).cnt)
  | 0x033 => some (wd (s.tl (tlKey (s.hart h).cid (h / 8) 3)).cnt)
  | 0x038 => some (s.stack (h / 32)).colalloc
  | 0x039 => some (wd (s.stack (h / 32)).colseq)
  | 0x03A => some s.xsched
  | 0x03B => some (s.hart h).ltmo
  | 0x041 => some (s.ctx (s.hart h).cid).ubpool
  | 0x048 => some (if s.sdp then 0x100600000#64 else 0x300000#64)
  | 0x049 => some (if s.sdp then 0x003D000003D00000#64 else 0x003D000101E80000#64)
  | 0x050 => some (wd (h % 512))
  | 0x051 => some (s.hart h).crewid
  | 0x052 => some (s.hart h).bandid
  | 0x053 => some (s.hart h).nodeid
  | _ => none

/-- The RW bits of the registers whose every RW field takes any value (R87, R89, R110 to R113, R385); none for the
others. -/
def rwBits : Nat → Option W
  | 0x004 => some 0x3#64
  | 0x005 => some 0x1#64
  | 0x006 => some 0x1F#64
  | 0x010 => some 0x320#64
  | 0x012 => some 0xC0000000000000FF#64
  | 0x013 => some (BitVec.allOnes 64)
  | 0x014 => some 0x01FFFFFFFFFFFFFF#64
  | 0x015 => some (BitVec.allOnes 64)
  | 0x016 => some 0x3FFFF#64
  | 0x021 => some 0x0000FFFFFFF00000#64
  | 0x022 => some 0x0000FFFFFFFFF000#64
  | 0x03B => some 0x80000000FFFFFFFF#64
  | 0x041 => some 0xFFFFFFFFFFFFF000#64
  | _ => none

/-- A written TVEC or EXITV (R385): a PC that no instruction can have leaves the register, and 0 is kept as 0. -/
def vecAfter (old new : W) : W :=
  let pc := fld new 0 57
  if pc = 0 then 0 else if pc % 2 = 1 ∨ pc / 2 % 32 = 0 then old else wd pc

/-- What a write of `new` leaves in the register `idx` that held `old`: the RW bits of `new` and the others of `old`, and
in the registers whose fields refuse some values what R108, R109, R355 and R385 say. -/
def crAfter (old new : W) (idx : Nat) : Option W :=
  let put (m : W) : W := (old &&& ~~~m) ||| (new &&& m)
  match idx with
  | 0x003 => some (put (if fld new 15 3 ≤ 4 then 0xFFFF0000000F83FF#64 else 0xFFFF0000000C03FF#64))
  | 0x011 => some (vecAfter old new)
  | 0x017 => some (vecAfter old new)
  | 0x03A => some (put (if fld new 0 2 = 3 then 0xFFFF0000#64 else 0xFFFF0003#64))
  | _ => (rwBits idx).map put

/-- COLALLOC with a new SEQN, which one above 64 does not change (R372). -/
def seqnAfter (old new : W) : W := if 64 < fld new 0 7 then old else (old &&& ~~~0x7F#64) ||| (new &&& 0x7F#64)

/-- The word that the write instruction `i` gives its register, from the old one and S(A) (R171). -/
def crNew (x : Hart) (old : W) : Instr → Option (SReg × Nat × W)
  | .crwr d idx a => some (d, idx.toNat, x.rd a)
  | .crset d idx a => some (d, idx.toNat, old ||| x.rd a)
  | .crclr d idx a => some (d, idx.toNat, old &&& ~~~(x.rd a))
  | _ => none

end Sys2Proof.Obl

open Sys2Proof Sys2Proof.Machine Sys2Proof.Obl

/-- ECALL takes the environment call of its level, with TEPC at the next instruction, and at machine level the
illegal-instruction trap; EBRK takes a breakpoint at itself where no debugger is armed (R175, R386, R387). -/
def Sys2Proof.Obl.CallsTrap : Prop :=
  ∀ (s : State) (h : Nat), s.agent = .hart h → (s.hart h).vq = [] →
    let x := s.hart h
    (x.level = .n → CanTrap s h 0x11 → ∃ t, exec .ecall s = .next t ∧ Trapped s t h 0x11 0 (nextPC x.pc x.nh)) ∧
    (x.level = .s → CanTrap s h 0x12 → ∃ t, exec .ecall s = .next t ∧ Trapped s t h 0x12 0 (nextPC x.pc x.nh)) ∧
    (x.level = .m → CanTrap s h 0x01 → TrapsAt s h .ecall 0x01 (wordOf .ecall)) ∧
    (fld x.hstat 4 1 = 0 → CanTrap s h 0x13 → TrapsAt s h .ebrk 0x13 0)

/-- A trap from a handler to its own level overwrites TCAUSE and TVAL alone and sets NEST; TEPC, TSTAT and TIDX stay
(R387). -/
def Sys2Proof.Obl.NestedTrapKeepsTheOuter : Prop :=
  ∀ (s : State) (h : Nat), s.agent = .hart h → (s.hart h).vq = [] → fld (s.hart h).hstat 4 1 = 0 → CanNest s h 0x13 →
    ∃ t, exec .ebrk s = .next t ∧ Nested s t h 0x13 0

/-- A trap of ECALL or EBRK that finds no handler address removes the context with cause 0x33, and one nested at its own level
while NEST is set removes it with cause 0x32; TVAL is 0 (R71, R387, R398). -/
def Sys2Proof.Obl.FatalTraps : Prop :=
  ∀ (s : State) (h : Nat) (i : Instr) (code : Nat), s.agent = .hart h → (s.hart h).vq = [] →
    let x := s.hart h
    (i = .ebrk ∧ code = 0x13 ∧ fld x.hstat 4 1 = 0) ∨ (i = .ecall ∧
      ((x.level = .n ∧ code = 0x11) ∨ (x.level = .s ∧ code = 0x12) ∨ (x.level = .m ∧ code = 0x01))) →
    Leaves s x.cid → h ∈ s.ctxHarts x.cid →
    (handlerOf s h code = 0 → ∃ t, exec i s = .next t ∧ RemovedFrom s t x.cid 0x33 0) ∧
    (handlerOf s h code ≠ 0 → x.inHandler = true → targetOf x code = x.level → fld x.hstat 5 1 = 1 →
      ∃ t, exec i s = .next t ∧ RemovedFrom s t x.cid 0x32 0)

/-- EBRK with a debugger armed halts the stack of the hart and goes on past itself when the halt ends; on that stack the
halt ends the waits of WFI, LLDT, LFLUSH and SPTSW, and no hart that waits in none of them changes (R141, R175, R402). That the
EBRK stands behind itself is the model's choice of log 59, which waits the halt ends its choice of log 48. -/
def Sys2Proof.Obl.ArmedBreakpointHalts : Prop :=
  ∀ (s : State) (h : Nat), s.agent = .hart h → fld (s.hart h).hstat 4 1 = 1 → (s.hart h).wait = none →
    ∃ t, exec .ebrk s = .next t ∧ (t.stack (h / 32)).halted = true ∧ (∀ k, k ≠ h / 32 → t.stack k = s.stack k) ∧
      (∀ k, k ≠ h → k / 32 ≠ h / 32 ∨ (s.hart k).wait = none → t.hart k = s.hart k) ∧
      Past (s.hart h) (t.hart h) ∧ SameRegs (s.hart h) (t.hart h) ∧ { t with harts := s.harts, stks := s.stks } = s

/-- TRET of a handler restores what R389 says, reissues the queue image that TSTAT names, and at machine level reloads the
six registers of a valid machine frame. That the program counter takes bits 63:57 equal to bit 56 of TEPC is the model's choice
of log 63. -/
def Obligations.ReturnFromTrap : Prop :=
  ∀ (s : State) (h : Nat), s.agent = .hart h → (s.hart h).vq = [] → (s.hart h).inHandler = true →
    (s.hart h).level ≠ .n → GoodStatus (s.hart h) →
    ∃ t, exec .tret s = .next t ∧ OnlyHart s t h ∧
      let x := s.hart h
      let y := t.hart h
      Returned x y ∧
        (if x.level = .m ∧ x.mframe.valid = true then
          y.hstat = x.mframe.hstat ∧ y.tcause = x.mframe.tcause ∧ y.tval = x.mframe.tval ∧ y.tepc = x.mframe.tepc ∧
            y.tstat = x.mframe.tstat ∧ y.mframe = { x.mframe with valid := false } ∧ y.tidx = x.mframe.tidx
        else RestoredHstat x y.hstat ∧ fld y.tstat 11 1 = 0 ∧ fld y.tstat 0 11 = fld x.tstat 0 11 ∧
          fld y.tstat 12 52 = fld x.tstat 12 52 ∧ y.tcause = x.tcause ∧ y.tval = x.tval ∧ y.tepc = x.tepc ∧
          y.tidx = x.tidx ∧ y.mframe = x.mframe)

/-- TRET with a bad TSTAT traps with cause bad status and TVAL the TSTAT (R176), nested in the handler that it leaves not,
and changes nothing else; TRET at node level or outside a handler is illegal. -/
def Sys2Proof.Obl.BadReturnTraps : Prop :=
  ∀ (s : State) (h : Nat), s.agent = .hart h → (s.hart h).vq = [] →
    ((s.hart h).level = .n ∨ (s.hart h).inHandler = false → CanTrap s h 0x01 → TrapsAt s h .tret 0x01 (wordOf .tret)) ∧
    ((s.hart h).level ≠ .n → ¬GoodStatus (s.hart h) → CanNest s h 0x10 →
      ∃ t, exec .tret s = .next t ∧ Nested s t h 0x10 (s.hart h).tstat)

/-- A register branch to an address that is no instruction slot takes a misalignment trap at the branch with TVAL the
target, and no link is written (R85, R150). -/
def Sys2Proof.Obl.BadTargetTraps : Prop :=
  ∀ (s : State) (h : Nat), s.agent = .hart h → (s.hart h).vq = [] → CanTrap s h 0x06 →
    (∀ d, goodTarget ((s.hart h).rd d) = false → TrapsAt s h (.br d) 0x06 ((s.hart h).rd d)) ∧
    (∀ d a, goodTarget ((s.hart h).rd a) = false → TrapsAt s h (.blr d a) 0x06 ((s.hart h).rd a))

/-- Below their level the supervisor instructions are illegal (R178, R180, R181), and XINV all below machine level. -/
def Sys2Proof.Obl.SupervisorOnly : Prop :=
  ∀ (s : State) (h : Nat) (i : Instr), s.agent = .hart h → (s.hart h).vq = [] → CanTrap s h 0x01 →
    ((s.hart h).level = .n ∧ ((∃ p a, i = .xinvPage p a) ∨ i = .xinvCtx ∨ i = .xinvRdt ∨ (∃ d a, i = .sptsw d a) ∨
        ∃ a, i = .tkill a)) ∨ ((s.hart h).level ≠ .m ∧ i = .xinvAll) →
    TrapsAt s h i 0x01 (wordOf i)

/-- A control-register instruction that names an unassigned index, reads below the read level or writes where R89 does
not let it takes the illegal-instruction trap, and nothing is read or written (R89, R90, R171). -/
def Sys2Proof.Obl.ControlRegisterDenied : Prop :=
  ∀ (s : State) (h : Nat), s.agent = .hart h → (s.hart h).vq = [] → CanTrap s h 0x01 →
    (∀ d idx, ¬mayRead (s.hart h).level idx.toNat → TrapsAt s h (.crrd d idx) 0x01 (wordOf (.crrd d idx))) ∧
    (∀ i d idx v, crNew (s.hart h) 0 i = some (d, idx, v) → ¬mayWrite (s.hart h).level idx →
      TrapsAt s h i 0x01 (wordOf i))

/-- CRRD writes the register's value to its destination and changes nothing else (R171, R172); the value is the one that
R89 and the register's own rule name. -/
def Sys2Proof.Obl.ControlRegisterReads : Prop :=
  ∀ (s : State) (h : Nat) (d : SReg) (idx : BitVec 10), s.agent = .hart h → mayRead (s.hart h).level idx.toNat →
    crReady (s.hart h) idx.toNat →
    ScalarResult s h (.crrd d idx) d (crRead s h idx.toNat) ∧
      ∀ v, crValue s h idx.toNat = some v → crRead s h idx.toNat = v

/-- CRWR, CRSET and CRCLR write their register as its fields allow, answer the old value, and leave every other control
register, every other hart and memory (R109, R171, R173): the registers of one hart, of its context and XSCHED at once;
LINES of UBRES beside USED (R364); COLALLOC, whose new SEQN waits for the round that latches it and keeps its value where
the new one is above 64 (R372, R373); and SFRQH, which moves the oldest records of the context's queue to the scratchpad
offset of the new word (R401). -/
def Sys2Proof.Obl.ControlRegisterWrites : Prop :=
  ∀ (s : State) (h : Nat) (i : Instr) (d : SReg) (idx : Nat) (new : W), s.agent = .hart h →
    crNew (s.hart h) (crRead s h idx) i = some (d, idx, new) → mayWrite (s.hart h).level idx → crReady (s.hart h) idx →
    ∃ t, exec i s = .next t ∧ Wrote (s.hart h) (t.hart h) d (crRead s h idx) ∧
      (t.hart h).pc = nextPC (s.hart h).pc (s.hart h).nh ∧ (∀ k, k ≠ h → t.hart k = s.hart k) ∧
      (∀ j, j ≠ idx → (idx = 0x028 → j ≠ 0x029) → crRead t h j = crRead s h j) ∧
      (∀ v, crAfter (crRead s h idx) new idx = some v → crRead t h idx = v ∧
        { t with harts := s.harts, ctxs := s.ctxs, xsched := s.xsched } = s) ∧
      (idx = 0x040 → tget 0 (s.ctx (s.hart h).cid).ubres (h / 32) < 2 ^ 20 →
        crRead t h idx = (crRead s h idx &&& ~~~0xFFFFF#64) ||| (new &&& 0xFFFFF#64) ∧
        { t with harts := s.harts, ctxs := s.ctxs } = s) ∧
      (idx = 0x038 → crRead t h 0x038 = crRead s h 0x038 ∧
        (t.stack (h / 32)).colallocNew =
          some (seqnAfter ((s.stack (h / 32)).colallocNew.getD (s.stack (h / 32)).colalloc) new) ∧
        (∀ k, k ≠ h / 32 → t.stack k = s.stack k) ∧ { t with harts := s.harts, stks := s.stks } = s) ∧
      (idx = 0x028 →
        let off := fld new 0 32
        let recs := ((s.core (h / 8)).records (s.hart h).cid).take (fld new 32 7)
        let bad := off % 32 ≠ 0 ∨ (if s.sdp then 0x600000 else 0x300000) < off + 32 * recs.length
        { t with harts := s.harts, cores := s.cores, mem := s.mem, poison := s.poison, lost := s.lost } = s ∧
        (∀ k, k ≠ h / 8 → t.core k = s.core k) ∧
        (bad → MemSame s t ∧ (t.core (h / 8)).sfrq = (s.core (h / 8)).sfrq ∧ crRead t h 0x028 = wd off) ∧
        (¬bad → crRead t h 0x028 = wd (recs.length * 2 ^ 32 + off) ∧
          (t.core (h / 8)).records (s.hart h).cid = ((s.core (h / 8)).records (s.hart h).cid).drop recs.length ∧
          (∀ r ∈ recs.zipIdx, t.natAt (spadAddr (h / 8) (off + 32 * r.2)) 32 = r.1.word) ∧
          ∀ a, a < spadAddr (h / 8) off ∨ spadAddr (h / 8) off + 32 * recs.length ≤ a → t.byteAt a = s.byteAt a))

/-- The order instructions of a hart. SVF completes at once and leaves what it orders: with direction VS, an entry that
names the vector instructions issued so far and the sets of the SVF; with direction SV, one for each access of the hart
under way that the predecessor set takes in (R168). The others complete when nothing of the hart is on the fabric and its
vector queue has drained: FENCE changes nothing that a program reads but the program counter, IFENCE discards the fetched
lines, and DRAINST leaves no refusal of the hart on its way (R165, R169, R170). -/
def Sys2Proof.Obl.OrderInstructionsComplete : Prop :=
  (∀ (s : State) (h : Nat) (x : SvfArgs), s.agent = .hart h →
    ∃ t, exec (.svf x) s = .next t ∧ OnlyHart s t h ∧ SameRegs (s.hart h) (t.hart h) ∧
      Past (s.hart h) { t.hart h with sv := (s.hart h).sv, vs := (s.hart h).vs } ∧
      (2 ≤ x.dir.toNat → ∃ e ∈ (t.hart h).vs, e.till = (s.hart h).vecNo ∧ e.pr = x.pr ∧ e.pw = x.pw ∧ e.sr = x.sr ∧
        e.sw = x.sw) ∧
      (x.dir.toNat % 2 = 1 → ∀ e ∈ s.reqs, e.2.src = h →
        (x.pr = true ∧ e.2.kinds.1 = true ∨ x.pw = true ∧ e.2.kinds.2 = true) →
        ∃ w ∈ (t.hart h).sv, w.req = e.1 ∧ w.reads = x.sr ∧ w.writes = x.sw)) ∧
  ∀ (s : State) (h : Nat), s.agent = .hart h → (s.hart h).vq = [] → NoPosted s h → (s.hart h).colPend = 0 →
    (∀ x, ∃ t, exec (.fence x) s = .next t ∧ { t with harts := s.harts, stale := s.stale } = s ∧
      (∀ k, k ≠ h → t.hart k = s.hart k) ∧ Past (s.hart h) (t.hart h) ∧ SameRegs (s.hart h) (t.hart h)) ∧
    (∃ t, exec .ifence s = .next t ∧ OnlyHart s t h ∧ (t.hart h).ilines = [] ∧ SameRegs (s.hart h) (t.hart h) ∧
      (t.hart h).pc = nextPC (s.hart h).pc (s.hart h).nh) ∧
    (∃ t, exec .drainst s = .next t ∧ (∀ e ∈ t.refusals, e.2.hart ≠ h) ∧ t.mem = s.mem ∧
      SameRegs (s.hart h) (t.hart h) ∧ (t.hart h).pc = nextPC (s.hart h).pc (s.hart h).nh)

/-- WFI acts as YIELD at node level, and completes at once where an interrupt is pending; otherwise the hart waits at it
(R177). -/
def Sys2Proof.Obl.WaitForInterrupt : Prop :=
  ∀ (s : State) (h : Nat), s.agent = .hart h →
    ((s.hart h).level = .n ∨ fld (s.hart h).hstat 9 1 = 1 → ScalarNothing s h .wfi) ∧
    ((s.hart h).level ≠ .n → fld (s.hart h).hstat 9 1 = 0 →
      ∃ t, exec .wfi s = .next t ∧ OnlyHart s t h ∧ { t.hart h with wait := (s.hart h).wait } = s.hart h ∧
        (t.hart h).inWfi = true)

/-- The invalidations and SPTSW at their level, where every stack can be reached on channel 2 and no table that is loaded
again lies in a locked row: what each drops or loads again, for the hart's context, and under XINV ALL for every context
(R32, R178 to R180, R246, R263). The cached translations that they drop are those of the model's choice of log 11. SPTSW
waits at itself while an access that the context has issued is still to be performed (R180). -/
def Obligations.InvalidationsComplete : Prop :=
  ∀ (s : State) (h : Nat), s.agent = .hart h → (s.hart h).level ≠ .n →
    (∀ st, st < 16 → reachOn s 2 2 (h / 32) st = .ok) →
    let x := s.hart h
    let c := s.ctx x.cid
    (∀ p a, vptLocked s x.cid = false → ∃ t, exec (.xinvPage p a) s = .next t ∧ Past x (t.hart h) ∧ SameRegs x (t.hart h) ∧
      (∀ k, k ≠ x.cid → t.ctx k = s.ctx k) ∧
      let size := pageBytes p.toNat
      let base := fld (x.rd a) 0 57 / size * size
      (∀ e, e ∈ (t.ctx x.cid).tlb ↔ e ∈ c.tlb ∧ ¬(e.vbase < base + size ∧ base < e.vbase + e.size)) ∧
      { t.ctx x.cid with tlb := c.tlb } = { c with vpt := vptLoad s c.vptb }) ∧
    (vptLocked s x.cid = false → ∃ t, exec .xinvCtx s = .next t ∧ Past x (t.hart h) ∧ SameRegs x (t.hart h) ∧
      (∀ k, k ≠ x.cid → t.ctx k = s.ctx k) ∧
      t.ctx x.cid = { c with tlb := [], vpt := vptLoad s c.vptb }) ∧
    (rdtLocked s x.cid = false → ∃ t, exec .xinvRdt s = .next t ∧ Past x (t.hart h) ∧ SameRegs x (t.hart h) ∧
      (∀ k, k ≠ x.cid → t.ctx k = s.ctx k) ∧
      t.ctx x.cid = { c with rdt := rdtLoad s c.rdtb }) ∧
    (let used (k : Nat) : Prop := k ∈ tkeys s.ctxs ∧ ((s.ctx k).installed = true ∨ s.ctxHarts k ≠ [])
    x.level = .m → (∀ k, used k → vptLocked s k = false) → ∃ t, exec .xinvAll s = .next t ∧ Past x (t.hart h) ∧
      SameRegs x (t.hart h) ∧ (∀ k, used k → t.ctx k = { s.ctx k with tlb := [], vpt := vptLoad s (s.ctx k).vptb }) ∧
      ∀ k, ¬used k → t.ctx k = s.ctx k) ∧
    (∀ d a, accessPends s x.cid = true → ∃ t, exec (.sptsw d a) s = .next t ∧ (t.hart h).inSptsw = true ∧ OnlyHart s t h ∧
      { t.hart h with wait := x.wait } = x) ∧
    (∀ d a, accessPends s x.cid = false → (∀ w ∈ s.winParts, w.cid ≠ x.cid) →
      ∃ t, exec (.sptsw d a) s = .next t ∧ Past x (t.hart h) ∧ Wrote x (t.hart h) d c.spt ∧
        (∀ k, k ≠ x.cid → t.ctx k = s.ctx k) ∧ (t.ctx x.cid).tlb = [] ∧ fld (t.ctx x.cid).spt 0 36 = fld (x.rd a) 0 36 ∧
        fld (t.ctx x.cid).spt 36 28 = fld c.spt 36 28)

/-- TKILL in a handler ends every hart of the crew (R181) and, where no band waits for the slices of its band, leaves every
other hart as live as it was; where the context goes on, no byte of memory changes. -/
def Obligations.CrewKillEndsTheCrew : Prop :=
  ∀ (s : State) (h : Nat) (a : SReg), s.agent = .hart h → (s.hart h).level ≠ .n → (s.hart h).inHandler = true →
    (∀ b, s.band? (s.hart h).band = some b → b.incoming = none) →
    ∃ t, exec (.tkill a) s = .next t ∧ (t.hart h).live = false ∧
      (∀ k ∈ crewHarts s h, (s.hart k).band = (s.hart h).band → (t.hart k).live = false) ∧
      (∀ k, k ∉ crewHarts s h → k ≠ h → (t.hart k).live = (s.hart k).live) ∧
      ((s.ctx (s.hart h).cid).installed = true → (∀ k ∈ crewHarts s h, (s.hart k).cid = (s.hart h).cid) → t.mem = s.mem)

namespace Sys2Proof.Obl
open Sys2Proof.Machine

/-- The requester that a hart is (R237). -/
def rqOf (s : State) (h : Nat) : Rq :=
  { cid := (s.hart h).cid, stack := h / 8 / 4, lvl := (s.hart h).level, who := h }

/-- The parts and lines of `n` bytes at `a` hold nothing that a read through window `w` under key `key` would not show
plainly: no poison, no bit error, no older copy in the other window, the key of the access, no bad tag, no lock. -/
def CleanDram (s : State) (cid key a n w : Nat) : Prop :=
  (∀ p ∈ partsOf a n, s.poisoned p = false ∧ tget 0 s.softErr p = 0 ∧ ∀ v < 2, ∀ e ∈ s.stale, e.1 ≠ 2 * p + v) ∧
    (∀ l ∈ linesOf a n, tget 0 s.keyIds l = key ∧ tget 0 s.tags l < 8 ∧ rowLocked s cid (l * 128) = false) ∧
    w < 2

/-- Nothing holds a checked access of `n` bytes back and none of its effects reaches beyond its bytes: no lock, no SVF and no
SPTSW of another hart, no bank that computes, and in the sets of the slice that its lines go to no unbacked line and a way
that no host line takes (R25, R168, R180, R263, R337, R366). -/
def FreeAccess (s : State) (r : Rq) (via : Via) (k : AKind) (va : W) (n : Nat) (acc : Acc) (p : Place) : Prop :=
  sptHeld s via k = false ∧ pieceHeld s r via k { va := va, n := n, acc := acc, p := p } = false ∧
    gapLines s acc p n = [] ∧ ∀ lin w, p = .dram lin w →
      ∀ l ∈ linesOf (if acc.lt = 0 then acc.pa else homeAddr acc p) n,
        setLines s (homeStack s acc p) l = [] ∧ (setHosts s (homeStack s acc p) l).length < ways s.sdp

/-- No SVF and no SPTSW of another hart holds the agent's vector accesses of a kind back (R168, R180). -/
abbrev VecFree (s : State) (k : AKind) : Prop := svfHolds s .vector k = false ∧ sptHeld s .vector k = false

/-- An access of kind `k` translates to `n` plain bytes at the canonical address `a`: of a scratchpad, or of backed DRAM
outside lattice regions, whose home answers (R155, R231, R235, R240, R248). -/
def PlainAt (s : State) (r : Rq) (via : Via) (k : AKind) (va : W) (n a : Nat) : Prop :=
  ∃ acc p e, resolve s r via k va n = (.ok (acc, p), e) ∧ acc.ub = false ∧ acc.lt = 0 ∧
    reach s r.stack (homeStack s acc p) = .ok ∧ FreeAccess s r via k va n acc p ∧
    ((∃ c o, p = .spad c o ∧ a = spadAddr c o ∧ ∀ q ∈ partsOf a n, s.poisoned q = false) ∨
      (∃ w, p = .dram a w ∧ CleanDram s r.cid acc.key a n p.window))

/-- Nothing of the part changed but harts, cached translations and what `f` gives. -/
def OnlyTlb (s t : State) (h : Nat) : Prop :=
  (∀ k, k ≠ h → t.hart k = s.hart k) ∧ ∀ c, { t.ctx c with tlb := (s.ctx c).tlb } = s.ctx c

/-- The hart runs and waits for no answer of the fabric; this step posts no access; no access of it is under way. -/
def Quiet (s : State) (h : Nat) : Prop :=
  s.agent = .hart h ∧ (s.hart h).await = none ∧ s.posting = none ∧ NoPosted s h

/-- The loads into one register (R153, R159): destination, address, bytes, and the value from the bytes. -/
def loadOf (x : Hart) : Instr → Option (SReg × W × Nat × (Nat → W))
  | .ldbTl2 d a off => some (d, x.rd a + off.signExtend 64, 1, fun v => (BitVec.ofNat 8 v).signExtend 64)
  | .ldbTl3 d a off => some (d, x.rd a + off.signExtend 64, 1, fun v => (BitVec.ofNat 8 v).signExtend 64)
  | .ldbzTl2 d a off => some (d, x.rd a + off.signExtend 64, 1, wd)
  | .ldbzTl3 d a off => some (d, x.rd a + off.signExtend 64, 1, wd)
  | .ldhTl2 d a off => some (d, x.rd a + off.signExtend 64, 2, fun v => (BitVec.ofNat 16 v).signExtend 64)
  | .ldhTl3 d a off => some (d, x.rd a + off.signExtend 64, 2, fun v => (BitVec.ofNat 16 v).signExtend 64)
  | .ldhzTl2 d a off => some (d, x.rd a + off.signExtend 64, 2, wd)
  | .ldhzTl3 d a off => some (d, x.rd a + off.signExtend 64, 2, wd)
  | .ldwTl2 d a off => some (d, x.rd a + off.signExtend 64, 4, fun v => (BitVec.ofNat 32 v).signExtend 64)
  | .ldwTl3 d a off => some (d, x.rd a + off.signExtend 64, 4, fun v => (BitVec.ofNat 32 v).signExtend 64)
  | .ldwzTl2 d a off => some (d, x.rd a + off.signExtend 64, 4, wd)
  | .ldwzTl3 d a off => some (d, x.rd a + off.signExtend 64, 4, wd)
  | .lddTl2 d a off => some (d, x.rd a + off.signExtend 64, 8, wd)
  | .lddTl3 d a off => some (d, x.rd a + off.signExtend 64, 8, wd)
  | .lda d _ sz a off => some (d, x.rd a + off.signExtend 64, if sz then 8 else 4,
      if sz then wd else fun v => (BitVec.ofNat 32 v).signExtend 64)
  | _ => none

/-- LDQ (R153, R154): the even register of its pair, and its address. -/
def loadQOf (x : Hart) : Instr → Option (SReg × W)
  | .ldqTl2 d a off => some (d, x.rd a + off.signExtend 64)
  | .ldqTl3 d a off => some (d, x.rd a + off.signExtend 64)
  | _ => none

/-- The second register of a pair (R154). -/
def pairHigh (d : SReg) : SReg := ⟨(d.val + 1) % 64, Nat.mod_lt _ (by decide)⟩

/-- The number that a pair of registers holds, the even register low (R154). -/
def pairVal (x : Hart) (d : SReg) : Nat := (x.rd d).toNat + 2 ^ 64 * (x.rd (pairHigh d)).toNat

/-- The scalar stores (R153, R154, R159): address, bytes, and the number stored. -/
def storeOf (x : Hart) : Instr → Option (W × Nat × Nat)
  | .stbTl2 d a off => some (x.rd a + off.signExtend 64, 1, (x.rd d).toNat % 2 ^ 8)
  | .stbTl3 d a off => some (x.rd a + off.signExtend 64, 1, (x.rd d).toNat % 2 ^ 8)
  | .sthTl2 d a off => some (x.rd a + off.signExtend 64, 2, (x.rd d).toNat % 2 ^ 16)
  | .sthTl3 d a off => some (x.rd a + off.signExtend 64, 2, (x.rd d).toNat % 2 ^ 16)
  | .stwTl2 d a off => some (x.rd a + off.signExtend 64, 4, (x.rd d).toNat % 2 ^ 32)
  | .stwTl3 d a off => some (x.rd a + off.signExtend 64, 4, (x.rd d).toNat % 2 ^ 32)
  | .stdTl2 d a off => some (x.rd a + off.signExtend 64, 8, (x.rd d).toNat)
  | .stdTl3 d a off => some (x.rd a + off.signExtend 64, 8, (x.rd d).toNat)
  | .stqTl2 d a off => some (x.rd a + off.signExtend 64, 16, pairVal x d)
  | .stqTl3 d a off => some (x.rd a + off.signExtend 64, 16, pairVal x d)
  | .stl d _ sz a off => some (x.rd a + off.signExtend 64, if sz then 8 else 4, (x.rd d).toNat % 2 ^ (if sz then 64 else 32))
  | _ => none

/-- The atomics on one word or doubleword (R161, R162): destination, address, bytes, and the new value from the old; none
where memory keeps it. -/
def amoOf (x : Hart) : Instr → Option (SReg × W × Nat × (Nat → Option Nat))
  | .amoadd d b a sz _ => some (d, x.rd a, if sz then 8 else 4,
      fun o => some ((o + (x.rd b).toNat) % 2 ^ (if sz then 64 else 32)))
  | .amoand d b a sz _ => some (d, x.rd a, if sz then 8 else 4, fun o => some (o &&& (x.rd b).toNat))
  | .amoor d b a sz _ => some (d, x.rd a, if sz then 8 else 4,
      fun o => some (o ||| (x.rd b).toNat % 2 ^ (if sz then 64 else 32)))
  | .amoxor d b a sz _ => some (d, x.rd a, if sz then 8 else 4,
      fun o => some (o ^^^ (x.rd b).toNat % 2 ^ (if sz then 64 else 32)))
  | .amomin d b a sz _ => some (d, x.rd a, if sz then 8 else 4, fun o =>
      let w := if sz then 64 else 32
      some (if sInt w (x.rd b).toNat < sInt w o then (x.rd b).toNat % 2 ^ w else o))
  | .amomax d b a sz _ => some (d, x.rd a, if sz then 8 else 4, fun o =>
      let w := if sz then 64 else 32
      some (if sInt w o < sInt w (x.rd b).toNat then (x.rd b).toNat % 2 ^ w else o))
  | .amoswap d b a sz _ => some (d, x.rd a, if sz then 8 else 4,
      fun _ => some ((x.rd b).toNat % 2 ^ (if sz then 64 else 32)))
  | .amocas d b c a sz _ => some (d, x.rd a, if sz then 8 else 4, fun o =>
      let w := if sz then 64 else 32
      if o = (x.rd b).toNat % 2 ^ w then some ((x.rd c).toNat % 2 ^ w) else none)
  | _ => none

/-- The bytes from `a` hold the low `n` bytes of `v`, and every other byte of memory is as it was (R5). -/
def StoredAt (s t : State) (a n v : Nat) : Prop :=
  (∀ i, i < n → t.byteAt (a + i) = BitVec.ofNat 8 (v / 2 ^ (8 * i))) ∧
    ∀ b, (b < a ∨ a + n ≤ b) → t.byteAt b = s.byteAt b

/-- Nothing changed but harts, cached translations, and what memory keeps of its bytes: the bytes, poison, keys, tags,
bit errors that a store overwrites, and the older copies of R262. -/
def OnlyStored (s t : State) : Prop :=
  { t with harts := s.harts, ctxs := s.ctxs, mem := s.mem, poison := s.poison, lost := s.lost, keyIds := s.keyIds,
           tags := s.tags, stale := s.stale, softErr := s.softErr } = s

/-- Address and alignment of every scalar memory access (R153, R155, R159, R161, R162). -/
def accessOf (x : Hart) (i : Instr) : Option (W × Nat) :=
  match loadOf x i, loadQOf x i, storeOf x i, amoOf x i, i with
  | some e, _, _, _, _ => some (e.2.1, e.2.2.1)
  | _, some e, _, _, _ => some (e.2, 16)
  | _, _, some e, _, _ => some (e.1, e.2.1)
  | _, _, _, some e, _ => some (e.2.1, e.2.2.1)
  | _, _, _, _, .amocasq _ _ _ a _ => some (x.rd a, 16)
  | _, _, _, _, _ => none

end Sys2Proof.Obl

open Sys2Proof Sys2Proof.Machine Sys2Proof.Obl

/-- Every scalar load completes from readable, aligned bytes: the destination receives them extended as R153 says, no
byte of memory changes, and nothing else but a cached translation does (R153 to R155, R159). -/
def Obligations.ScalarLoads : Prop :=
  ∀ (s : State) (h : Nat) (i : Instr) (a : Nat), Quiet s h →
    (∀ d va n f, loadOf (s.hart h) i = some (d, va, n, f) → va.toNat % n = 0 →
      PlainAt s (rqOf s h) .scalar .read va n a →
      ∃ t, exec i s = .next t ∧ Wrote (s.hart h) (t.hart h) d (f (s.natAt a n)) ∧ Past (s.hart h) (t.hart h) ∧
        OnlyTlb s t h ∧ MemSame s t ∧ { t with harts := s.harts, ctxs := s.ctxs } = s) ∧
    (∀ d va, loadQOf (s.hart h) i = some (d, va) → d.val % 2 = 0 → va.toNat % 16 = 0 →
      PlainAt s (rqOf s h) .scalar .read va 16 a →
      ∃ t, exec i s = .next t ∧ (t.hart h).rd d = (if d.val = 0 then 0 else wd (s.natAt a 16)) ∧
        (t.hart h).rd (pairHigh d) = wd (s.natAt a 16 / 2 ^ 64) ∧
        (∀ k, k ≠ d → k ≠ pairHigh d → (t.hart h).rd k = (s.hart h).rd k) ∧ Past (s.hart h) (t.hart h) ∧
        OnlyTlb s t h ∧ MemSame s t ∧ { t with harts := s.harts, ctxs := s.ctxs } = s)

/-- Every scalar store completes to writable, aligned bytes: they hold the stored number in little-endian order, every
other byte of memory and every register is as it was, and the poison of no other part changes (R5, R153 to R155, R159,
R240). -/
def Obligations.ScalarStores : Prop :=
  ∀ (s : State) (h : Nat) (i : Instr) (va : W) (n v a : Nat), Quiet s h → storeOf (s.hart h) i = some (va, n, v) →
    va.toNat % n = 0 → PlainAt s (rqOf s h) .scalar .write va n a →
    ∃ t, exec i s = .next t ∧ StoredAt s t a n v ∧ OnlyStored s t ∧ (∀ p, p ∉ partsOf a n → t.poisoned p = s.poisoned p) ∧
      Past (s.hart h) (t.hart h) ∧ SameRegs (s.hart h) (t.hart h) ∧ OnlyTlb s t h

/-- Every atomic completes on aligned bytes: D receives the old value, a word sign-extended, memory the new value of
R161 and R162, where a compare that fails leaves memory; nothing else changes. -/
def Obligations.Atomics : Prop :=
  ∀ (s : State) (h : Nat) (a : Nat), Quiet s h →
    (∀ i d va n f, amoOf (s.hart h) i = some (d, va, n, f) → va.toNat % n = 0 →
      PlainAt s (rqOf s h) .scalar .amo va n a →
      ∃ t, exec i s = .next t ∧ Wrote (s.hart h) (t.hart h) d
          (if n = 4 then (BitVec.ofNat 32 (s.natAt a 4)).signExtend 64 else wd (s.natAt a n)) ∧
        (match f (s.natAt a n) with
          | some v => StoredAt s t a n v
          | none => MemSame s t) ∧
        OnlyStored s t ∧ Past (s.hart h) (t.hart h) ∧ OnlyTlb s t h) ∧
    (∀ d b c ra sc, d.val % 2 = 0 → b.val % 2 = 0 → c.val % 2 = 0 → ((s.hart h).rd ra).toNat % 16 = 0 →
      PlainAt s (rqOf s h) .scalar .amo ((s.hart h).rd ra) 16 a →
      ∃ t, exec (.amocasq d b c ra sc) s = .next t ∧ (t.hart h).rd d = (if d.val = 0 then 0 else wd (s.natAt a 16)) ∧
        (t.hart h).rd (pairHigh d) = wd (s.natAt a 16 / 2 ^ 64) ∧
        (∀ k, k ≠ d → k ≠ pairHigh d → (t.hart h).rd k = (s.hart h).rd k) ∧
        (if s.natAt a 16 = pairVal (s.hart h) b then StoredAt s t a 16 (pairVal (s.hart h) c) else MemSame s t) ∧
        OnlyStored s t ∧ Past (s.hart h) (t.hart h) ∧ OnlyTlb s t h)

/-- A scalar load, store or atomic whose address is not a multiple of its size takes a misalignment trap with TVAL the
address: no register is written and no byte of memory changes (R155, R163). -/
def Sys2Proof.Obl.MisalignedScalarAccessTraps : Prop :=
  ∀ (s : State) (h : Nat) (i : Instr) (va : W) (n : Nat), Quiet s h → (s.hart h).vq = [] → CanTrap s h 0x06 →
    accessOf (s.hart h) i = some (va, n) → va.toNat % n ≠ 0 → TrapsAt s h i 0x06 va

namespace Sys2Proof.Obl
open Sys2Proof.Machine

/-- Hart `h` executes a vector instruction under `c`, itself or at the head of its queue: no handler holds a queue image
against it, VTYPE is legal, no drain deadline cuts it, and no stream is bound (R88, R195, R222, R390). -/
def VecReady (s : State) (h : Nat) (c : VCtx) : Prop :=
  (s.agent = .hart h ∨ s.agent = .queue h) ∧ c = vctxOf s ∧ imageBars s = false ∧ fld c.vtype 63 1 = 0 ∧
    s.cutAt = none ∧ (s.hart h).streams = [] ∧ (s.hart h).popped = []

/-- The hart waits for no earlier vector instruction (R191). -/
def QueueDone (s : State) (h : Nat) : Prop := s.agent = .hart h → (s.hart h).vq = []

/-- A vector instruction has completed: TIDX is 0 and the instruction is behind the hart, in the program or in its queue
(R42, R186). -/
def VecDone (s t : State) (h : Nat) : Prop :=
  (t.hart h).tidx = 0 ∧
    (s.agent = .hart h → (t.hart h).pc = nextPC (s.hart h).pc (s.hart h).nh ∧ (t.hart h).vq = (s.hart h).vq) ∧
    (s.agent = .queue h → (t.hart h).pc = (s.hart h).pc ∧ (t.hart h).vq = (s.hart h).vq.tail)

/-- A hart but for what a vector instruction may write: vector bytes, mask bits, scalar registers and flags, which the
statements name on their own, and what completion moves. -/
def SameBut (x y : Hart) : Prop :=
  { y with v := x.v, k := x.k, s := x.s, fflags := x.fflags, satf := x.satf, tidx := x.tidx, pc := x.pc, vq := x.vq,
           wait := x.wait, retiredAt := x.retiredAt, popped := x.popped, vecNo := x.vecNo } = x

/-- The element at which the agent's instruction starts: TIDX, or what a return has put beside the head of a queue (R42,
R389). -/
def startAt (s : State) (h : Nat) : Nat :=
  if s.agent = .queue h then ((s.hart h).vq.head?.bind (·.start)).getD (fld (s.hart h).tidx 0 18)
  else fld (s.hart h).tidx 0 18

/-- Every vector register byte is as it was. -/
def SameVec (x y : Hart) : Prop := ∀ n b, y.vbyte n b = x.vbyte n b
/-- Every mask bit is as it was. -/
def SameMasks (x y : Hart) : Prop := ∀ n i, y.kbit n i = x.kbit n i
/-- The flags of `f` are added to FFLAGS and SATF (R110 to R112). -/
def AddedFlags (x y : Hart) (f : Nat) : Prop := y.fflags = x.fflags ||| wd (f % 32) ∧ y.satf = x.satf ||| wd (f / 32 % 2)

/-- Element `j` of a group lies in the granted slices (R60, R61). -/
def hasElem (x : Hart) (g : Grp) (j : Nat) : Prop :=
  (g.place j).2 + g.eew / 8 ≤ x.cur * 512 ∧ (g.place j).2 + g.eew / 8 ≤ 0x6000

/-- An element-wise instruction (R186, R198 to R207): its destination and source groups, whether they overlap where they
may not, whether SEW or LMUL is not allowed, its mask and Z, the elements it never writes, and what it gives each active
element, with the flags, from the registers before. -/
structure Lane where
  dst : Grp
  srcs : List Grp
  clash : Bool
  bad : Bool
  k : KReg
  z : Bool
  skip : Nat → Bool
  f : Nat → Nat × Nat

/-- The groups are aligned, nothing is forbidden, and VL fits the masks that are read (R187, R188, R190). -/
def LaneReady (x : Hart) (c : VCtx) (l : Lane) : Prop :=
  (∀ g ∈ l.dst :: l.srcs, g.base % g.g = 0) ∧ l.clash = false ∧ l.bad = false ∧ (l.k.val ≠ 0 → c.vl ≤ x.mlen)

/-- Element `j` is written from the function of the lane. -/
def Lane.on (l : Lane) (x : Hart) (j : Nat) : Bool := x.kbit l.k.val j && !l.skip j

/-- What the elements of a lane instruction from element `lo` to VL leave (R186): active elements their result, inactive
ones zero with Z and their old value without; every other element and register keeps its bytes; the flags of the active
elements are added; nothing else of the part changes. -/
def LaneResult (s : State) (h : Nat) (i : Instr) (c : VCtx) (lo : Nat) (l : Lane) : Prop :=
  ∃ t, exec i s = .next t ∧ OnlyHart s t h ∧ VecDone s t h ∧
    let x := s.hart h
    let y := t.hart h
    (∀ j, lo ≤ j → j < c.vl → hasElem x l.dst j → y.elem l.dst j =
      if l.skip j then x.elem l.dst j else if x.kbit l.k.val j then (l.f j).1 % 2 ^ l.dst.eew
      else if l.z then 0 else x.elem l.dst j) ∧
    (∀ j, j < lo ∨ c.vl ≤ j → y.elem l.dst j = x.elem l.dst j) ∧
    (∀ n b, n < l.dst.base ∨ l.dst.base + l.dst.g ≤ n → y.vbyte n b = x.vbyte n b) ∧
    AddedFlags x y ((upto lo (c.vl - lo)).foldl (fun a j => if l.on x j then a ||| (l.f j).2 else a) 0) ∧
    SameMasks x y ∧ SameRegs x y ∧ SameBut x y

/-- The second operand of element `j` (R197). -/
def srcVal (c : VCtx) (x : Hart) (regs : Tab W) (zx : Bool) (b : VSrc) (j : Nat) : Nat :=
  match b with
  | .v r => x.elem (c.grp r) j
  | .s r => (rdS regs r.val).toNat % 2 ^ c.sew
  | .i imm => if zx then imm.toNat else lowBits c.sew imm.toInt

/-- The group of the second operand, where it is one (R197). -/
def srcGrp (c : VCtx) (b : VSrc) : List Grp :=
  match b with
  | .v r => [c.grp r]
  | .s _ => []
  | .i _ => []

/-- A value cut to a range, with the saturation flag (R106, R112). -/
def clampTo (lo hi v : Int) : Int × Nat := if hi < v then (hi, fSAT) else if v < lo then (lo, fSAT) else (v, 0)

/-- Saturation to the signed or natural range of `w` bits, in `w` bits (R106). -/
def satTo (n : Bool) (w : Nat) (v : Int) : Nat × Nat :=
  let r := if n then clampTo 0 (2 ^ w - 1) v else clampTo (-(2 ^ (w - 1))) (2 ^ (w - 1) - 1) v
  (lowBits w r.1, r.2)

/-- An element of `w` bits as a number: natural or signed (R198). -/
def asInt (n : Bool) (w a : Nat) : Int := if n then (a % 2 ^ w : Nat) else sInt w a

/-- A lane with two sources. -/
def binLane (c : VCtx) (x : Hart) (regs : Tab W) (d : VReg) (b : VBin) (bad zx : Bool) (f : Nat → Nat → Nat × Nat) : Lane :=
  { dst := c.grp d, srcs := c.grp b.a :: srcGrp c b.src, clash := false, bad := bad, k := b.k, z := b.z
    skip := fun _ => false, f := fun j => f (x.elem (c.grp b.a) j) (srcVal c x regs zx b.src j) }

/-- The integer instructions of R198. -/
def intLane (c : VCtx) (x : Hart) (regs : Tab W) : Instr → Option Lane
  | .vadd d b => some (binLane c x regs d b false false fun p q => ((p + q) % 2 ^ c.sew, 0))
  | .vsub d b => some (binLane c x regs d b false false fun p q => (lowBits c.sew ((p : Int) - q), 0))
  | .vmul d b => some (binLane c x regs d b false false fun p q => (p * q % 2 ^ c.sew, 0))
  | .vmulh d b => some (binLane c x regs d b false false fun p q =>
      (lowBits c.sew (asInt b.n c.sew p * asInt b.n c.sew q / 2 ^ c.sew), 0))
  | .vmin d b => some (binLane c x regs d b false false fun p q => (if sInt c.sew p ≤ sInt c.sew q then p else q, 0))
  | .vmax d b => some (binLane c x regs d b false false fun p q => (if sInt c.sew q ≤ sInt c.sew p then p else q, 0))
  | .vminn d b => some (binLane c x regs d b false false fun p q => (min p q, 0))
  | .vmaxn d b => some (binLane c x regs d b false false fun p q => (max p q, 0))
  | .vand d b => some (binLane c x regs d b false false fun p q => (p &&& q, 0))
  | .vor d b => some (binLane c x regs d b false false fun p q => (p ||| q, 0))
  | .vxor d b => some (binLane c x regs d b false false fun p q => (p ^^^ q, 0))
  | .vsll d b => some (binLane c x regs d b false true fun p q => (p * 2 ^ (q % c.sew) % 2 ^ c.sew, 0))
  | .vsrl d b => some (binLane c x regs d b false true fun p q => (p / 2 ^ (q % c.sew), 0))
  | .vsra d b => some (binLane c x regs d b false true fun p q => (lowBits c.sew (sInt c.sew p / 2 ^ (q % c.sew)), 0))
  | .vsadd d b => some (binLane c x regs d b false false fun p q =>
      satTo b.n c.sew (asInt b.n c.sew p + asInt b.n c.sew q))
  | .vssub d b => some (binLane c x regs d b false false fun p q =>
      satTo b.n c.sew (asInt b.n c.sew p - asInt b.n c.sew q))
  | _ => none

/-- A group of elements twice as wide (R188). -/
def wideGrp (c : VCtx) (r : VReg) : Grp := { base := r.val, eew := 2 * c.sew, g := 2 * c.lmul }
/-- SEW 64 and LMUL 8 allow no wide operand (R188). -/
def wideBad (c : VCtx) : Bool := c.sew == 64 || c.lmul == 8

/-- A widening lane (R199): it may not overlap its sources (R190). -/
def wideLane (c : VCtx) (x : Hart) (regs : Tab W) (d : VReg) (b : VBin) (f : Nat → Nat → Nat → Int) : Lane :=
  let ops := c.grp b.a :: srcGrp c b.src
  { dst := wideGrp c d, srcs := ops, clash := ops.any (wideGrp c d).overlaps, bad := wideBad c, k := b.k, z := b.z
    skip := fun _ => false
    f := fun j => (lowBits (2 * c.sew) (f (x.elem (wideGrp c d) j) (x.elem (c.grp b.a) j) (srcVal c x regs false b.src j)), 0) }

/-- The widening multiplies and VNSRA (R199, R200). -/
def mixLane (c : VCtx) (x : Hart) (regs : Tab W) : Instr → Option Lane
  | .vwmul d b => some (wideLane c x regs d b fun _ p q => asInt b.n c.sew p * asInt b.n c.sew q)
  | .vwmacc d b => some (wideLane c x regs d b fun o p q => (o : Int) + asInt b.n c.sew p * asInt b.n c.sew q)
  | .vwmaccsn d b => some (wideLane c x regs d b fun o p q => (o : Int) + sInt c.sew p * (q : Int))
  | .vnsra d b =>
    let srcs := wideGrp c b.a :: srcGrp c b.src
    some { dst := c.grp d, srcs := srcs, clash := srcs.any (c.grp d).overlaps, bad := wideBad c, k := b.k, z := b.z
           skip := fun _ => false
           f := fun j => satTo b.n c.sew (roundShift (asInt b.n (2 * c.sew) (x.elem (wideGrp c b.a) j))
             (srcVal c x regs true b.src j % (2 * c.sew)) c.fxrm) }
  | _ => none

/-- Floating-point arithmetic needs SEW 16 or 32 (R189). -/
def floatBad (c : VCtx) : Bool := c.sew != 16 && c.sew != 32

/-- A fused lane (R202): a × b + C, with a negated where `neg` holds. -/
def fmaLane (c : VCtx) (x : Hart) (regs : Tab W) (d : VReg) (b : VFma) (neg : Bool) : Lane :=
  { dst := c.grp d, srcs := c.grp b.a :: c.grp b.c :: srcGrp c b.src, clash := false, bad := floatBad c, k := b.k
    z := b.z, skip := fun _ => false
    f := fun j => fArith c.sew c.fz [x.elem (c.grp b.a) j, srcVal c x regs false b.src j, x.elem (c.grp b.c) j] (fun l =>
      match l with
      | [p, q, o] => fFma (if neg then p.negate else p) q o
      | _ => quiet 0) }

/-- A floating-point lane with one source (R202). -/
def unLane (c : VCtx) (x : Hart) (d : VReg) (b : VUn) (f : Nat → Nat × Nat) : Lane :=
  { dst := c.grp d, srcs := [c.grp b.a], clash := false, bad := floatBad c, k := b.k, z := b.z, skip := fun _ => false
    f := fun j => f (x.elem (c.grp b.a) j) }

/-- The floating-point instructions (R202, R205): each computes the exact operation on the flushed operands and rounds once
(R129, R130). -/
def floatLane (c : VCtx) (x : Hart) (regs : Tab W) : Instr → Option Lane
  | .vfadd d b => some (binLane c x regs d b (floatBad c) false fun p q => fArith c.sew c.fz [p, q] (two fAdd))
  | .vfsub d b => some (binLane c x regs d b (floatBad c) false fun p q =>
      fArith c.sew c.fz [p, q] (two fun u v => fAdd u v.negate))
  | .vfmul d b => some (binLane c x regs d b (floatBad c) false fun p q => fArith c.sew c.fz [p, q] (two fMul))
  | .vfmin d b => some (binLane c x regs d b (floatBad c) false fun p q => fArith c.sew c.fz [p, q] (two (fPick false)))
  | .vfmax d b => some (binLane c x regs d b (floatBad c) false fun p q => fArith c.sew c.fz [p, q] (two (fPick true)))
  | .vfdiv d b => some (binLane c x regs d b (floatBad c) false fun p q => fArith c.sew c.fz [p, q] (two fDiv))
  | .vfma d b => some (fmaLane c x regs d b false)
  | .vfnma d b => some (fmaLane c x regs d b true)
  | .vfsqrt d b => some (unLane c x d b fun p => fArith c.sew c.fz [p] (fun l =>
      match l with
      | [u] => fSqrt u
      | _ => quiet 0))
  | .vfexp2 d b => some (unLane c x d b fun p => fRef c.sew c.fz exp2Ref p)
  | .vfrcp d b => some (unLane c x d b fun p => fRef c.sew c.fz rcpRef p)
  | .vfcvt d b =>
    let src := if b.kind.toNat = 0 then wideGrp c b.a else c.grp b.a
    let dst := if b.kind.toNat = 1 then wideGrp c d else c.grp d
    let mixed := decide (b.kind.toNat < 2)
    some { dst := dst, srcs := [src], clash := mixed && dst.overlaps src
           bad := floatBad c || (mixed && (c.sew != 16 || wideBad c)), k := b.k, z := b.z, skip := fun _ => false
           f := fun j => cvt b.kind.toNat c.sew c.fz c.rm (x.elem src j) }
  | _ => none

/-- A compare or mask instruction: sources, whether SEW is not allowed, mask and Z, and the bit and flags of each element
from the registers before (R201, R204, R208). -/
structure KLane where
  d : KReg
  srcs : List Grp
  bad : Bool
  k : KReg
  z : Bool
  f : Nat → Bool × Nat

/-- The groups are aligned, SEW is allowed, and VL fits the masks (R187, R188). -/
def KReady (x : Hart) (c : VCtx) (l : KLane) : Prop :=
  (∀ g ∈ l.srcs, g.base % g.g = 0) ∧ l.bad = false ∧ c.vl ≤ x.mlen

/-- What the elements of a compare or mask instruction leave (R187, R201, R208): bits of the destination alone, which k0
discards. -/
def KResult (s : State) (h : Nat) (i : Instr) (c : VCtx) (l : KLane) : Prop :=
  ∃ t, exec i s = .next t ∧ OnlyHart s t h ∧ VecDone s t h ∧
    let x := s.hart h
    let y := t.hart h
    let lo := startAt s h
    (∀ j, lo ≤ j → j < c.vl → j < 16384 → l.d.val ≠ 0 → y.kbit l.d.val j =
      if x.kbit l.k.val j then (l.f j).1 else if l.z then false else x.kbit l.d.val j) ∧
    (∀ n j, n ≠ l.d.val ∨ j < lo ∨ c.vl ≤ j → y.kbit n j = x.kbit n j) ∧
    AddedFlags x y ((upto lo (c.vl - lo)).foldl (fun a j => if x.kbit l.k.val j then a ||| (l.f j).2 else a) 0) ∧
    SameVec x y ∧ SameRegs x y ∧ SameBut x y

/-- An integer compare (R201). -/
def cmpLane (c : VCtx) (x : Hart) (regs : Tab W) (d : KReg) (b : VBin) (f : Nat → Nat → Bool) : KLane :=
  { d := d, srcs := c.grp b.a :: srcGrp c b.src, bad := false, k := b.k, z := b.z
    f := fun j => (f (x.elem (c.grp b.a) j) (srcVal c x regs false b.src j), 0) }

/-- A floating-point compare (R204): false on a NaN; `any` says whether every NaN or a signalling one alone sets NV. -/
def fcmpLane (c : VCtx) (x : Hart) (regs : Tab W) (d : KReg) (b : VBin) (any : Bool) (f : FVal → FVal → Bool) : KLane :=
  { d := d, srcs := c.grp b.a :: srcGrp c b.src, bad := floatBad c, k := b.k, z := b.z
    f := fun j =>
      let l := layOf c.sew
      let u := l.val (flushIn l c.fz (x.elem (c.grp b.a) j))
      let v := l.val (flushIn l c.fz (srcVal c x regs false b.src j))
      (!(u.isNan || v.isNan) && f u v, if (if any then u.isNan || v.isNan else u.sig || v.sig) then fNV else 0) }

/-- A mask instruction without a mask of its own (R208). -/
def bitLane (d : KReg) (f : Nat → Bool) : KLane :=
  { d := d, srcs := [], bad := false, k := 0, z := false, f := fun j => (f j, 0) }

/-- The compares and the mask instructions that write a mask (R201, R204, R208). -/
def maskLane (c : VCtx) (x : Hart) (regs : Tab W) : Instr → Option KLane
  | .vmseq d b => some (cmpLane c x regs d b fun p q => decide (p = q))
  | .vmslt d b => some (cmpLane c x regs d b fun p q => decide (sInt c.sew p < sInt c.sew q))
  | .vmsltn d b => some (cmpLane c x regs d b fun p q => decide (p < q))
  | .vmfeq d b => some (fcmpLane c x regs d b false fEq)
  | .vmflt d b => some (fcmpLane c x regs d b true fLt)
  | .vmfle d b => some (fcmpLane c x regs d b true fun p q => fLt p q || fEq p q)
  | .kand d a b => some (bitLane d fun j => x.kbit a.val j && x.kbit b.val j)
  | .kor d a b => some (bitLane d fun j => x.kbit a.val j || x.kbit b.val j)
  | .kxor d a b => some (bitLane d fun j => x.kbit a.val j != x.kbit b.val j)
  | .knot d a => some (bitLane d fun j => !x.kbit a.val j)
  | .kset d a => some (bitLane d fun j => decide (j < (rdS regs a.val).toNat))
  | _ => none

/-- The active elements below VL of a group, none where inactive, in order (R206). -/
def redElems (c : VCtx) (x : Hart) (k : KReg) (g : Grp) : List (Option Nat) :=
  (upto 0 c.vl).map fun j => if x.kbit k.val j then some (x.elem g j) else none

/-- An instruction that writes one scalar register when it completes: its destination, source groups, whether SEW is not
allowed, whether it reads a mask that VL must fit, the value and the flags (R191, R206 to R208). -/
structure SLane where
  d : SReg
  srcs : List Grp
  bad : Bool
  masks : Bool
  v : W
  flags : Nat

/-- A reduction (R206). -/
def redLane (c : VCtx) (x : Hart) (d : SReg) (b : VRed) (fp : Bool) (f : List (Option Nat) → W × Nat) : SLane :=
  let r := f (redElems c x b.k (c.grp b.a))
  { d := d, srcs := [c.grp b.a], bad := fp && floatBad c, masks := b.k.val != 0, v := r.1, flags := r.2 }

/-- The integers among the elements of a reduction. -/
def redInts (n : Bool) (w : Nat) (l : List (Option Nat)) : List Int := (l.filterMap id).map (asInt n w)

/-- One step of a saturating sum (R206). -/
def satSumStep (n : Bool) (w : Nat) (a : Int × Nat) (e : Int) : Int × Nat :=
  let r := if n then satN w (a.1 + e) else satS w (a.1 + e)
  (r.1, a.2 ||| r.2)

/-- The reductions, VEXT and the mask instructions that write a scalar register (R135, R136, R206 to R208). -/
def scalarLane (c : VCtx) (x : Hart) (regs : Tab W) : Instr → Option SLane
  | .vredsum d b => some (redLane c x d b false fun l =>
      (BitVec.ofInt 64 ((rdS regs b.b.val).toNat + (redInts b.n c.sew l).sum), 0))
  | .vredosum d b => some (redLane c x d b false fun l =>
      let v := rdS regs b.b.val
      let r := (redInts b.n c.sew l).foldl (satSumStep b.n c.sew) (if b.n then satN c.sew v.toNat else satS c.sew v.toInt)
      (BitVec.ofInt 64 r.1, r.2))
  | .vredmax d b => some (redLane c x d b false fun l =>
      (BitVec.ofInt 64 ((redInts b.n c.sew l).foldl max (asInt b.n c.sew (rdS regs b.b.val).toNat)), 0))
  | .vredmin d b => some (redLane c x d b false fun l =>
      (BitVec.ofInt 64 ((redInts b.n c.sew l).foldl min (asInt b.n c.sew (rdS regs b.b.val).toNat)), 0))
  | .vfredsum d b => some (redLane c x d b true fun l =>
      let i0 := (rdS regs b.b.val).toNat % 2 ^ c.sew
      let t := treeSum c.fz 18 (l.map (fun e => e.map (widen32 c.sew)))
      match t.1 with
      | none => (wd i0, 0)
      | some v =>
        let r := fArith 32 c.fz [v, widen32 c.sew i0] (two fAdd)
        narrow32 c.sew (r.1, t.2 ||| r.2))
  | .vfredosum d b => some (redLane c x d b true fun l =>
      let i0 := (rdS regs b.b.val).toNat % 2 ^ c.sew
      if (l.filterMap id).isEmpty then (wd i0, 0)
      else narrow32 c.sew ((l.filterMap id).foldl (fun acc a =>
        let r := fArith 32 c.fz [acc.1, widen32 c.sew a] (two fAdd)
        (r.1, acc.2 ||| r.2)) (widen32 c.sew i0, 0)))
  | .vfredmax d b => some (redLane c x d b true fun l =>
      let r := (l.filterMap id).foldl (fun acc a =>
        let r := fArith c.sew c.fz [acc.1, a] (two (fPick true))
        (r.1, acc.2 ||| r.2)) ((rdS regs b.b.val).toNat % 2 ^ c.sew, 0)
      (wd r.1, r.2))
  | .vext d b =>
    let j := match b.src with
      | .s r => (rdS regs r.val).toNat
      | .i imm => imm.toNat
      | .v _ => 0
    some { d := d, srcs := [c.grp b.a], bad := false, masks := false
           v := if j < c.vl then (if b.n then wd (x.elem (c.grp b.a) j) else sext c.sew (x.elem (c.grp b.a) j)) else 0
           flags := 0 }
  | .kpopc d a => some { d := d, srcs := [], bad := false, masks := a.val != 0
                         v := wd ((upto 0 c.vl).filter (fun j => x.kbit a.val j)).length, flags := 0 }
  | .kfirst d a => some { d := d, srcs := [], bad := false, masks := a.val != 0
                          v := match (upto 0 c.vl).find? (fun j => x.kbit a.val j) with
                            | some j => wd j
                            | none => BitVec.allOnes 64
                          flags := 0 }
  | _ => none

/-- The offset or index of a slide (R207). -/
def slideBy (regs : Tab W) (b : VSrc) : Nat :=
  match b with
  | .s r => (rdS regs r.val).toNat
  | .i imm => imm.toNat
  | .v _ => 0

/-- A permutation (R190, R207): its destination may not overlap its sources. -/
def permLane (c : VCtx) (d : VReg) (k : KReg) (z : Bool) (srcs : List Grp) (skip : Nat → Bool) (f : Nat → Nat) : Lane :=
  { dst := c.grp d, srcs := srcs, clash := srcs.any (c.grp d).overlaps, bad := false, k := k, z := z, skip := skip
    f := fun j => (f j, 0) }

/-- How many elements below `j` are active. -/
def activeBelow (x : Hart) (k : KReg) (j : Nat) : Nat := ((upto 0 j).filter (fun i => x.kbit k.val i)).length

/-- The permutations that give each element a value of its own (R207); VBCAST is element-wise. -/
def shuffleLane (c : VCtx) (x : Hart) (regs : Tab W) : Instr → Option Lane
  | .vslideup d b => some (permLane c d b.k b.z [c.grp b.a] (fun j => decide (j < slideBy regs b.src))
      fun j => x.elem (c.grp b.a) (j - slideBy regs b.src))
  | .vslidedn d b => some (permLane c d b.k b.z [c.grp b.a] (fun _ => false)
      fun j => if j + slideBy regs b.src < c.vl then x.elem (c.grp b.a) (j + slideBy regs b.src) else 0)
  | .vperm d b => some (permLane c d b.k b.z (c.grp b.a :: srcGrp c b.src) (fun _ => false)
      fun j => if srcVal c x regs false b.src j < c.vl then x.elem (c.grp b.a) (srcVal c x regs false b.src j) else 0)
  | .vexpand d b => some (permLane c d b.k b.z [c.grp b.a] (fun _ => false)
      fun j => x.elem (c.grp b.a) (activeBelow x b.k j))
  | .vprefix d b => some (permLane c d b.k b.z [c.grp b.a] (fun _ => false)
      fun j => (((upto 0 (j + 1)).filter (fun i => x.kbit b.k.val i)).map (x.elem (c.grp b.a))).sum % 2 ^ c.sew)
  | _ => none

/-- VBCAST of a scalar register or an immediate (R207). -/
def bcastLane (c : VCtx) (x : Hart) (regs : Tab W) (d : VReg) (b : VBcast) : Lane :=
  { dst := c.grp d, srcs := [], clash := false, bad := false, k := b.k, z := b.z, skip := fun _ => false
    f := fun j => (srcVal c x regs false b.src j, 0) }

end Sys2Proof.Obl

open Sys2Proof Sys2Proof.Machine Sys2Proof.Obl

/-- The same-width integer instructions give each active element from TIDX to VL the result of R198, and leave every
other element, register, mask and byte of memory (R186, R187, R197, R198). -/
def Obligations.VectorIntegers : Prop :=
  ∀ (s : State) (h : Nat) (i : Instr) (c : VCtx) (l : Lane), VecReady s h c →
    intLane c (s.hart h) (agentRegs s) i = some l → LaneReady (s.hart h) c l →
    LaneResult s h i c (startAt s h) l

/-- The widening multiplies and VNSRA, whose wide group may not overlap a narrow one (R188, R190, R199, R200). -/
def Obligations.VectorWidening : Prop :=
  ∀ (s : State) (h : Nat) (i : Instr) (c : VCtx) (l : Lane), VecReady s h c →
    mixLane c (s.hart h) (agentRegs s) i = some l → LaneReady (s.hart h) c l →
    LaneResult s h i c (startAt s h) l

/-- The floating-point instructions: each active element from TIDX to VL, and the flags it raises (R202, R205). -/
def Obligations.VectorFloats : Prop :=
  ∀ (s : State) (h : Nat) (i : Instr) (c : VCtx) (l : Lane), VecReady s h c →
    floatLane c (s.hart h) (agentRegs s) i = some l → LaneReady (s.hart h) c l →
    LaneResult s h i c (startAt s h) l

/-- The compares and mask instructions write bits TIDX to VL − 1 of their destination mask and nothing else but flags; k0
discards them (R187, R201, R204, R208). -/
def Obligations.VectorMasks : Prop :=
  ∀ (s : State) (h : Nat) (i : Instr) (c : VCtx) (l : KLane), VecReady s h c →
    maskLane c (s.hart h) (agentRegs s) i = some l → KReady (s.hart h) c l → KResult s h i c l

/-- The reductions, VEXT, KPOPC and KFIRST write their scalar register from the elements below VL and change nothing else
but flags (R191, R206 to R208). -/
def Obligations.VectorToScalar : Prop :=
  ∀ (s : State) (h : Nat) (i : Instr) (c : VCtx) (l : SLane), VecReady s h c → QueueDone s h →
    scalarLane c (s.hart h) (agentRegs s) i = some l → (∀ g ∈ l.srcs, g.base % g.g = 0) → l.bad = false →
    (l.masks = true → c.vl ≤ (s.hart h).mlen) →
    ∃ t, exec i s = .next t ∧ OnlyHart s t h ∧ VecDone s t h ∧ Wrote (s.hart h) (t.hart h) l.d l.v ∧
      AddedFlags (s.hart h) (t.hart h) l.flags ∧ SameVec (s.hart h) (t.hart h) ∧ SameMasks (s.hart h) (t.hart h) ∧
      SameBut (s.hart h) (t.hart h)

/-- The permutations take each active element from the place that R207 gives, all from the registers before; VBCAST fills
the elements from TIDX (R190, R192, R207). -/
def Sys2Proof.Obl.VectorPermutations : Prop :=
  ∀ (s : State) (h : Nat) (c : VCtx), VecReady s h c →
    (∀ i l, shuffleLane c (s.hart h) (agentRegs s) i = some l → LaneReady (s.hart h) c l → LaneResult s h i c 0 l) ∧
    (∀ d b, (∀ r, b.src ≠ .v r) → LaneReady (s.hart h) c (bcastLane c (s.hart h) (agentRegs s) d b) →
      LaneResult s h (.vbcast d b) c (startAt s h) (bcastLane c (s.hart h) (agentRegs s) d b))

/-- VCOMPRESS packs the active elements in order from element 0; what follows up to VL is zero with Z and stays without
(R207). -/
def Sys2Proof.Obl.VectorCompress : Prop :=
  ∀ (s : State) (h : Nat) (c : VCtx) (d : VReg) (b : VUn), VecReady s h c → d.val % c.lmul = 0 → b.a.val % c.lmul = 0 →
    (c.grp d).overlaps (c.grp b.a) = false → (b.k.val ≠ 0 → c.vl ≤ (s.hart h).mlen) →
    ∃ t, exec (.vcompress d b) s = .next t ∧ OnlyHart s t h ∧ VecDone s t h ∧
      let x := s.hart h
      let y := t.hart h
      let packed := ((upto 0 c.vl).filter (fun j => x.kbit b.k.val j)).map (x.elem (c.grp b.a))
      (∀ j, j < packed.length → hasElem x (c.grp d) j → y.elem (c.grp d) j = packed.getD j 0) ∧
      (∀ j, packed.length ≤ j → j < c.vl → hasElem x (c.grp d) j →
        y.elem (c.grp d) j = if b.z then 0 else x.elem (c.grp d) j) ∧
      (∀ j, c.vl ≤ j → y.elem (c.grp d) j = x.elem (c.grp d) j) ∧
      (∀ n v, n < d.val ∨ d.val + c.lmul ≤ n → y.vbyte n v = x.vbyte n v) ∧
      SameMasks x y ∧ SameRegs x y ∧ SameBut x y ∧ y.fflags = x.fflags ∧ y.satf = x.satf

/-- SETVL and SETVLI take the grant, then set VTYPE, VL and their destination; a reserved SEW or LMUL code sets ILL and
VL 0; register bytes and mask bits inside both grants stay, those outside the new grant are lost, and those of a newly granted
slice are zero (R62, R63, R88, R187, R194, R195). -/
def Obligations.SetVectorLength : Prop :=
  ∀ (s : State) (h : Nat) (i : Instr) (d : SReg) (q : VReq) (avl : Nat), s.agent = .hart h →
    (s.hart h).vq = [] → (∀ b, s.band? (s.hart h).band = some b → b.incoming = none) →
    ((∃ a, i = .setvl d q a ∧ avl = ((s.hart h).rd a).toNat) ∨ (∃ n, i = .setvli d q n ∧ avl = n.toNat)) →
    ∃ t, exec i s = .next t ∧ t.mem = s.mem ∧ (∀ k, k ≠ h → t.hart k = s.hart k) ∧ VecDone s t h ∧
      let x := s.hart h
      let y := t.hart h
      let ok := q.sew.toNat ≤ 3 ∧ q.lm.toNat ≤ 3
      y.cur = x.next ∧ y.rcl = false ∧
      (ok → y.vtype = wd (q.fz.toNat * 64 + q.lm.toNat * 8 + q.sew.toNat) ∧
        y.vl = wd (min avl (x.next * 512 * 2 ^ q.lm.toNat / 2 ^ q.sew.toNat))) ∧
      (¬ok → y.vtype = 0x8000000000000000#64 ∧ y.vl = 0) ∧ Wrote x y d y.vl ∧
      (∀ n b, b < x.next * 512 → b < x.cur * 512 → y.vbyte n b = x.vbyte n b) ∧
      (∀ n b, x.next * 512 ≤ b ∨ x.cur * 512 ≤ b → y.vbyte n b = 0) ∧
      (∀ n j, j < x.next * 256 → j < x.cur * 256 → y.kbit n j = x.kbit n j) ∧
      (∀ n j, n ≠ 0 → x.next * 256 ≤ j ∨ x.cur * 256 ≤ j → y.kbit n j = false) ∧
      y.fflags = x.fflags ∧ y.satf = x.satf

namespace Sys2Proof.Obl
open Sys2Proof.Machine

/-- Layout, whether it stores, data register, tail and offset of the plain vector memory instructions (R209, R210). -/
def vmemOf : Instr → Option (VLayout × Bool × VReg × VMem × W)
  | .vldTl2 d b => some (.packed, false, d, b, 0)
  | .vldTl3 d b off => some (.packed, false, d, b, off.signExtend 64)
  | .vstTl2 d b => some (.packed, true, d, b, 0)
  | .vstTl3 d b off => some (.packed, true, d, b, off.signExtend 64)
  | .vldsTl2 d b => some (.strided, false, d, b, 0)
  | .vldsTl3 d b off => some (.strided, false, d, b, off.signExtend 64)
  | .vstsTl2 d b => some (.strided, true, d, b, 0)
  | .vstsTl3 d b off => some (.strided, true, d, b, off.signExtend 64)
  | .vlsegTl2 d b => some (.fields, false, d, b, 0)
  | .vlsegTl3 d b off => some (.fields, false, d, b, off.signExtend 64)
  | .vssegTl2 d b => some (.fields, true, d, b, 0)
  | .vssegTl3 d b off => some (.fields, true, d, b, off.signExtend 64)
  | .vgatherTl2 d b => some (.indexed, false, d, b, 0)
  | .vgatherTl3 d b off => some (.indexed, false, d, b, off.signExtend 64)
  | .vscatterTl2 d b => some (.indexed, true, d, b, 0)
  | .vscatterTl3 d b off => some (.indexed, true, d, b, off.signExtend 64)
  | _ => none

/-- The format in force (R108, R209). -/
def fmtOf (c : VCtx) (store : Bool) (f : FmtSel) : Nat :=
  match f with
  | some x => x.toNat
  | none => if store then fld c.mfc 5 5 else fld c.mfc 0 5

/-- Field `q` of element `j`: its address, the first bit in its byte, and its register group (R118, R210). -/
def fieldAt (c : VCtx) (x : Hart) (regs : Tab W) (l : VLayout) (d : VReg) (b : VMem) (off : W) (fmt j q : Nat) : Field :=
  let base := rdS regs b.a.val + off
  let w := fmtBits fmt
  match l with
  | .packed => { va := base + wd (j * w / 8), bit := j * w % 8, grp := c.grp d }
  | .strided => { va := base + wd j * rdS regs b.c.val, bit := 0, grp := c.grp d }
  | .fields => { va := base + wd ((j * (b.nf.toNat + 1) + q) * elemBytes fmt), bit := 0
                 grp := { base := d.val + q * c.lmul, eew := c.sew, g := c.lmul } }
  | .indexed => { va := base + wd (x.elem (c.index b.b) j), bit := 0, grp := c.grp d }

/-- Fields of an element (R210). -/
def fieldCount (l : VLayout) (b : VMem) : Nat := if l = .fields then b.nf.toNat + 1 else 1

/-- What the checks of a plain vector memory instruction ask (R107, R118, R187, R188, R190, R211). -/
def VmemReady (x : Hart) (c : VCtx) (l : VLayout) (store : Bool) (d : VReg) (b : VMem) (fmt : Nat) : Prop :=
  d.val % c.lmul = 0 ∧ d.val + fieldCount l b * c.lmul ≤ 32 ∧ fmtBlock fmt = false ∧
    (l ≠ .packed → fmtWhole fmt = true) ∧ (fmtInt fmt = true ∨ c.sew = 16 ∨ c.sew = 32) ∧
    (l = .indexed → c.idxG ≤ 8 ∧ b.b.val % c.idxG = 0 ∧ (store = false → (c.grp d).overlaps (c.index b.b) = false)) ∧
    (b.k.val ≠ 0 → c.vl ≤ x.mlen)

/-- A bit field of memory is replaced: `w` bits from bit `bit` of the byte at `a`, or whole bytes from `a` where `w` is at
least 8. -/
def putField (m : Nat → Byte) (a bit w v : Nat) : Nat → Byte := fun q =>
  if w < 8 then
    if q = a then
      let o := (m a).toNat
      BitVec.ofNat 8 (o - o / 2 ^ bit % 2 ^ w * 2 ^ bit + v % 2 ^ w * 2 ^ bit)
    else m q
  else if a ≤ q ∧ q < a + w / 8 then BitVec.ofNat 8 (v / 2 ^ (8 * (q - a))) else m q

/-- The pairs of active element from `lo` and field, in the order in which they are performed (R213). -/
def storeOrder (x : Hart) (c : VCtx) (k : KReg) (lo n : Nat) : List (Nat × Nat) :=
  ((upto lo (c.vl - lo)).filter (fun j => x.kbit k.val j)).flatMap (fun j => (upto 0 n).map (fun q => (j, q)))

/-- The bytes of `n` from `va` are plain, at the canonical addresses that `addr` gives byte by byte (R213, R231). -/
def PlainRange (s : State) (r : Rq) (k : AKind) (va : W) (n : Nat) (addr : W → Nat) : Prop :=
  ∀ e ∈ piecesOf va n, PlainAt s r .vector k e.1 e.2 (addr e.1) ∧ ∀ i, i < e.2 → addr (e.1 + wd i) = addr e.1 + i

/-- The bytes of `n` from `va` as a number (R5). -/
def rangeVal (s : State) (addr : W → Nat) (va : W) (n : Nat) : Nat :=
  leNat ((upto 0 n).map (fun i => s.byteAt (addr (va + wd i))))

/-- The block instructions: whether they store, the data register, tail, offset, and whether they have a side list
(R209, R220). -/
def vblockOf : Instr → Option (Bool × VReg × VMem × W × Bool)
  | .vldTl2 d b => some (false, d, b, 0, false)
  | .vldTl3 d b off => some (false, d, b, off.signExtend 64, false)
  | .vstTl2 d b => some (true, d, b, 0, false)
  | .vstTl3 d b off => some (true, d, b, off.signExtend 64, false)
  | .vldqTl2 d b => some (false, d, b, 0, true)
  | .vldqTl3 d b off => some (false, d, b, off.signExtend 64, true)
  | .vstqTl2 d b => some (true, d, b, 0, true)
  | .vstqTl3 d b off => some (true, d, b, off.signExtend 64, true)
  | _ => none

/-- What the checks of a block instruction ask (R107, R187, R188, R211, R220); VSTQ and VLDQ need a format from 17 to 30
and a side list at a multiple of 8. -/
def VblockReady (x : Hart) (regs : Tab W) (c : VCtx) (d : VReg) (b : VMem) (fmt : Nat) (quant : Bool) : Prop :=
  d.val % c.lmul = 0 ∧ d.val + c.lmul ≤ 32 ∧ fmtBlock fmt = true ∧ (fmtInt fmt = true ∨ c.sew = 16 ∨ c.sew = 32) ∧
    (b.k.val ≠ 0 → c.vl ≤ x.mlen) ∧ (quant = true → 17 ≤ fmt ∧ fmt ≤ 30 ∧ (rdS regs b.c.val).toNat % 8 = 0)

/-- The block of element `j` and its place in it (R125). -/
def blockOf (c : VCtx) (fmt j : Nat) : Nat × Nat := blkOf fmt (fld c.mfc 48 16) c.vl j

/-- A block that holds an active element from `lo` (R125, R215). -/
def liveBlock (x : Hart) (c : VCtx) (k : KReg) (fmt lo q : Nat) : Prop :=
  ∃ j, lo ≤ j ∧ j < c.vl ∧ x.kbit k.val j = true ∧ (blockOf c fmt j).1 = q

/-- The flags that the slots of a side entry raise for the element at place `k` of its block: an unusable slot, and a slot
that replaces it (R127, log 86). -/
def sideFlags (c : VCtx) (fmt v k : Nat) : Nat :=
  [sideSlot c fmt (v % 2 ^ 32), sideSlot c fmt (v / 2 ^ 32 % 2 ^ 32)].foldl
    (fun a e => if e.1.map (·.1) = none ∨ e.1.map (·.1) = some k then a ||| e.2 else a) 0

/-- The slots of a side entry (R127). -/
def sidePair (c : VCtx) (fmt v : Nat) : List (Option (Nat × Nat)) :=
  [(sideSlot c fmt (v % 2 ^ 32)).1, (sideSlot c fmt (v / 2 ^ 32 % 2 ^ 32)).1]

/-- The peer instructions: whether they store, the data register, tail and offset (R218). -/
def peerOf : Instr → Option (Bool × VReg × VMem × W)
  | .vgatherpTl2 d b => some (false, d, b, 0)
  | .vgatherpTl3 d b off => some (false, d, b, off.signExtend 64)
  | .vscatterpTl2 d b => some (true, d, b, 0)
  | .vscatterpTl3 d b off => some (true, d, b, off.signExtend 64)
  | _ => none

/-- Target core and scratchpad offset of a peer index (R218). -/
def peerPlace (ix : Nat) (base : W) : Nat × Nat := (ix / 2 ^ 23 % 64, (wd (ix % 2 ^ 23) + base).toNat)

/-- A crew of the context runs on the core: a live hart of it whose band has not stopped (R219, R230). -/
def crewOn (s : State) (cid core : Nat) : Bool :=
  (upto (8 * core) 8).any fun k => (s.hart k).live && (s.hart k).cid == cid && match s.band? (s.hart k).band with
    | none => false
    | some b => b.phase == .running || b.phase == .stopping

/-- A peer element fails but for the poison of its data (R219, R230): reserved index bits, an offset outside the scratchpad
or not a multiple of the element, a core on which the context has no running crew, unless the element was performed before
its crew stopped, or whose island is gated, or a core that cannot be reached. -/
def peerBad (s : State) (h e ix : Nat) (base : W) (before : Bool) : Bool :=
  let p := peerPlace ix base
  decide (ix / 2 ^ 29 % 8 ≠ 0 ∨ spBytes s.sdp < p.2 + e ∨ p.2 % e ≠ 0 ∨
    (crewOn s (s.hart h).cid p.1 = false ∧ before = false) ∨
    tget false s.gated p.1 = true ∨ reach s (h / 32) (p.1 / 4) = .unreached ∨ reach s (h / 32) (p.1 / 4) = .unanswered)

end Sys2Proof.Obl

open Sys2Proof Sys2Proof.Machine Sys2Proof.Obl

/-- The plain vector loads give each field of each active element from TIDX to VL the converted bits at its address, clear
inactive ones with Z, add the flags of the conversions, and change no other element and no byte of memory (R107, R110, R118,
R186, R209, R210, R213). -/
def Obligations.VectorLoads : Prop :=
  ∀ (s : State) (h : Nat) (i : Instr) (c : VCtx) (l : VLayout) (d : VReg) (b : VMem) (off : W) (addr : W → Nat),
    VecReady s h c → vmemOf i = some (l, false, d, b, off) →
    let x := s.hart h
    let fmt := fmtOf c false b.fmt
    let lo := startAt s h
    let n := fieldCount l b
    let fd := fieldAt c x (agentRegs s) l d b off fmt
    VmemReady x c l false d b fmt →
    (∀ j q, lo ≤ j → j < c.vl → x.kbit b.k.val j = true → q < n → (fd j q).va.toNat % elemBytes fmt = 0 ∧
      PlainAt s (rqOf s h) .vector .read (fd j q).va (elemBytes fmt) (addr (fd j q).va)) →
    let val := fun j q => fromFmt c.sew (fld c.mfc 15 3) fmt
      (s.natAt (addr (fd j q).va) (elemBytes fmt) / 2 ^ (fd j q).bit % 2 ^ fmtBits fmt)
    ∃ t, exec i s = .next t ∧ OnlyHart s t h ∧ VecDone s t h ∧
      let y := t.hart h
      (∀ j q, lo ≤ j → j < c.vl → q < n → hasElem x (fd j q).grp j → y.elem (fd j q).grp j =
        if x.kbit b.k.val j then (val j q).1 % 2 ^ c.sew else if b.z then 0 else x.elem (fd j q).grp j) ∧
      AddedFlags x y ((storeOrder x c b.k lo n).foldl (fun a p => a ||| (val p.1 p.2).2) 0) ∧
      (∀ j q, j < lo ∨ c.vl ≤ j → q < n → y.elem (fd j q).grp j = x.elem (fd j q).grp j) ∧
      (∀ m v, m < d.val ∨ d.val + n * c.lmul ≤ m → y.vbyte m v = x.vbyte m v) ∧
      SameMasks x y ∧ SameRegs x y ∧ SameBut x y

/-- The plain vector stores write the converted bits of each field of each active element from TIDX to VL at its address,
in ascending order, add the flags of the conversions, and change no other bit of memory and no other register (R107, R110,
R118, R209, R210, R213, R217). -/
def Obligations.VectorStores : Prop :=
  ∀ (s : State) (h : Nat) (i : Instr) (c : VCtx) (l : VLayout) (d : VReg) (b : VMem) (off : W) (addr : W → Nat),
    VecReady s h c → vmemOf i = some (l, true, d, b, off) →
    let x := s.hart h
    let fmt := fmtOf c true b.fmt
    let lo := startAt s h
    let n := fieldCount l b
    let fd := fieldAt c x (agentRegs s) l d b off fmt
    let val := fun j q => toFmt c.sew (fld c.mfc 15 3) fmt (x.elem (fd j q).grp j)
    VmemReady x c l true d b fmt →
    (∀ j q, lo ≤ j → j < c.vl → x.kbit b.k.val j = true → q < n → (fd j q).va.toNat % elemBytes fmt = 0 ∧
      PlainAt s (rqOf s h) .vector .write (fd j q).va (elemBytes fmt) (addr (fd j q).va)) →
    ∃ t, exec i s = .next t ∧ VecDone s t h ∧ OnlyStored s t ∧
      (∀ a, t.byteAt a = (storeOrder x c b.k lo n).foldl
        (fun m p => putField m (addr (fd p.1 p.2).va) (fd p.1 p.2).bit (fmtBits fmt) (val p.1 p.2).1) s.byteAt a) ∧
      AddedFlags x (t.hart h) ((storeOrder x c b.k lo n).foldl (fun a p => a ||| (val p.1 p.2).2) 0) ∧
      (∀ k, k ≠ h → t.hart k = s.hart k) ∧ SameVec x (t.hart h) ∧ SameMasks x (t.hart h) ∧ SameRegs x (t.hart h) ∧
      SameBut x (t.hart h)

/-- A block load gives each active element from TIDX to VL its value in its block, under VLDQ with the side entry of the
block laid over it, adds the flags of the conversions (those of replaced values too, the model's choice of log 86), and changes
no other element and no byte of memory (R110, R125, R127, R213, R220). -/
def Sys2Proof.Obl.BlockLoads : Prop :=
  ∀ (s : State) (h : Nat) (i : Instr) (c : VCtx) (d : VReg) (b : VMem) (off : W) (quant : Bool) (addr : W → Nat),
    VecReady s h c → vblockOf i = some (false, d, b, off, quant) →
    let x := s.hart h
    let regs := agentRegs s
    let fmt := fmtOf c false b.fmt
    let lo := startAt s h
    let base := rdS regs b.a.val + off
    let va := fun q => base + wd (q * blkBytes fmt)
    let sva := fun q => rdS regs b.c.val + wd (8 * q)
    VblockReady x regs c d b fmt quant →
    (∀ q, liveBlock x c b.k fmt lo q → PlainRange s (rqOf s h) .read (va q) (blkBytes fmt) addr ∧
      (quant = true → PlainAt s (rqOf s h) .vector .read (sva q) 8 (addr (sva q)))) →
    let val := fun j => blkLoad (layOf c.sew) (fld c.mfc 15 3) fmt
      (leBytes (blkBytes fmt) (rangeVal s addr (va (blockOf c fmt j).1) (blkBytes fmt))) (blockOf c fmt j).2
    let side := fun j => s.natAt (addr (sva (blockOf c fmt j).1)) 8
    ∃ t, exec i s = .next t ∧ OnlyHart s t h ∧ VecDone s t h ∧
      let y := t.hart h
      (∀ j, lo ≤ j → j < c.vl → hasElem x (c.grp d) j → y.elem (c.grp d) j =
        if x.kbit b.k.val j then
          (if quant then sideVal (sidePair c fmt (side j)) (blockOf c fmt j).2 (val j).1 else (val j).1) % 2 ^ c.sew
        else if b.z then 0 else x.elem (c.grp d) j) ∧
      AddedFlags x y (((upto lo (c.vl - lo)).filter (fun j => x.kbit b.k.val j)).foldl (fun a j =>
        a ||| (val j).2 ||| if quant then sideFlags c fmt (side j) (blockOf c fmt j).2 else 0) 0) ∧
      (∀ j, j < lo ∨ c.vl ≤ j → y.elem (c.grp d) j = x.elem (c.grp d) j) ∧
      (∀ m v, m < d.val ∨ d.val + c.lmul ≤ m → y.vbyte m v = x.vbyte m v) ∧
      SameMasks x y ∧ SameRegs x y ∧ SameBut x y

/-- A block store writes every block that holds an active element in full, and under VSTQ the side entry of the block;
where the written ranges do not meet, each holds what R125 and R126 give; the flags of the conversions are added, and every
other byte of memory and every other register is as it was (R110, R125, R126, R215, R220). -/
def Sys2Proof.Obl.BlockStores : Prop :=
  ∀ (s : State) (h : Nat) (i : Instr) (c : VCtx) (d : VReg) (b : VMem) (off : W) (quant : Bool) (addr : W → Nat),
    VecReady s h c → startAt s h = 0 → vblockOf i = some (true, d, b, off, quant) →
    let x := s.hart h
    let regs := agentRegs s
    let fmt := fmtOf c true b.fmt
    let base := rdS regs b.a.val + off
    let va := fun q => base + wd (q * blkBytes fmt)
    let sva := fun q => rdS regs b.c.val + wd (8 * q)
    let real := fun q => (blkElems fmt (fld c.mfc 48 16) c.vl q).map (fun e => e.bind (fun j =>
      if x.kbit b.k.val j then some ((layOf c.sew).val (x.elem (c.grp d) j)) else none))
    let out := fun q => blkStore (fld c.mfc 15 3) fmt (if quant then fld c.mfc 18 2 else 0) (real q)
    let live := liveBlock x c b.k fmt 0
    let dataOf := fun q a => ∃ k, k < blkBytes fmt ∧ a = addr (va q + wd k)
    let sideOf := fun q a => quant = true ∧ addr (sva q) ≤ a ∧ a < addr (sva q) + 8
    VblockReady x regs c d b fmt quant →
    (∀ q, live q → PlainRange s (rqOf s h) .write (va q) (blkBytes fmt) addr ∧
      (quant = true → PlainAt s (rqOf s h) .vector .write (sva q) 8 (addr (sva q)))) →
    (∀ q q' a, live q → live q' → dataOf q a → (dataOf q' a → q = q') ∧ ¬sideOf q' a) →
    (∀ q q' a, live q → live q' → sideOf q a → sideOf q' a → q = q') →
    (∀ q k k', live q → k < blkBytes fmt → k' < blkBytes fmt → addr (va q + wd k) = addr (va q + wd k') → k = k') →
    ∃ t, exec i s = .next t ∧ VecDone s t h ∧ OnlyStored s t ∧
      (∀ q k, live q → k < blkBytes fmt → t.byteAt (addr (va q + wd k)) = (out q).1.getD k 0) ∧
      (∀ q k, live q → quant = true → k < 8 → t.byteAt (addr (sva q) + k) =
        BitVec.ofNat 8 (((out q).2.1.getD 0 0 + 2 ^ 32 * (out q).2.1.getD 1 0) / 2 ^ (8 * k))) ∧
      (∀ a, (∀ q, live q → ¬dataOf q a ∧ ¬sideOf q a) → t.byteAt a = s.byteAt a) ∧
      AddedFlags x (t.hart h) (((upto 0 (blkCount fmt (fld c.mfc 48 16) c.vl)).filter (fun q => (real q).any (·.isSome))).foldl
        (fun a q => a ||| (out q).2.2) 0) ∧
      (∀ k, k ≠ h → t.hart k = s.hart k) ∧ SameVec x (t.hart h) ∧ SameMasks x (t.hart h) ∧ SameRegs x (t.hart h) ∧
      SameBut x (t.hart h)

/-- The peer gathers and scatters: a failing active element sets its bit of the fault mask and stores or loads nothing,
every other one clears it; the flags of the conversions are added; no other byte, register or bit changes, and routers
report the routing errors of a way that fails (R36, R110, R218, R219). An element of a queued instruction that aims at a
crew which has stopped meanwhile was performed before the stop or fails, each for itself (R230); which one is free (log 97).
That a failing element raises no flags is its choice of log 98. That an element whose answer cannot come back fails and
leaves its target as it was is the model's choice of log 58, what the router reports its choice of log 65. -/
def Obligations.PeerAccesses : Prop :=
  ∀ (s : State) (h : Nat) (i : Instr) (c : VCtx) (store : Bool) (d : VReg) (b : VMem) (off : W),
    VecReady s h c → peerOf i = some (store, d, b, off) → VecFree s (if store then .write else .read) →
    let x := s.hart h
    let fmt := fmtOf c store b.fmt
    let e := elemBytes fmt
    let lo := startAt s h
    let base := rdS (agentRegs s) b.a.val + off
    let ix := fun j => x.elem (c.index b.b) j
    let at_ := fun j => spadAddr (peerPlace (ix j) base).1 (peerPlace (ix j) base).2
    let on := fun j => x.kbit b.k.val j
    let val := fun j => if store then toFmt c.sew (fld c.mfc 15 3) fmt (x.elem (c.grp d) j)
      else fromFmt c.sew (fld c.mfc 15 3) fmt (s.natAt (at_ j) e)
    d.val % c.lmul = 0 → b.b.val % c.idxG = 0 → c.idxG ≤ 8 → fmtWhole fmt = true →
    (fmtInt fmt = true ∨ c.sew = 16 ∨ c.sew = 32) → (store = false → (c.grp d).overlaps (c.index b.b) = false) →
    (b.k.val ≠ 0 ∨ b.c.val ≠ 0 → c.vl ≤ x.mlen) →
    (∀ j, lo ≤ j → j < c.vl → on j = true → peerBad s h e (ix j) base true = false →
      reach s (h / 32) ((peerPlace (ix j) base).1 / 4) ≠ .held) →
    ∃ before : Nat → Bool, (∀ j, before j = true →
      s.agent = .queue h ∧ tget 0 s.crewStops ((peerPlace (ix j) base).1 * 65536 + x.cid) ≠ 0) ∧
    let bad := fun j => peerBad s h e (ix j) base (before j) ||
      (!store && decide (∃ p ∈ partsOf (at_ j) e, s.poisoned p = true))
    ∃ t, exec i s = .next t ∧ VecDone s t h ∧ (∀ k, k ≠ h → t.hart k = s.hart k) ∧
      { t with harts := s.harts, mem := s.mem, poison := s.poison, lost := s.lost, out := s.out } = s ∧
      (∃ l, t.out = s.out ++ l ∧ ∀ m ∈ l, ∃ r, m = .routingError r) ∧
      let y := t.hart h
      (∀ j, lo ≤ j → j < c.vl → j < 16384 → b.c.val ≠ 0 → y.kbit b.c.val j = (on j && bad j)) ∧
      (∀ n j, n ≠ b.c.val ∨ j < lo ∨ c.vl ≤ j → y.kbit n j = x.kbit n j) ∧ SameRegs x y ∧ SameBut x y ∧
      AddedFlags x y (((upto lo (c.vl - lo)).filter (fun j => on j && !bad j)).foldl (fun a j => a ||| (val j).2) 0) ∧
      (store = true → SameVec x y ∧ ∀ a, t.byteAt a =
        ((upto lo (c.vl - lo)).filter (fun j => on j && !bad j)).foldl (fun m j =>
          putField m (at_ j) 0 (8 * e) (val j).1) s.byteAt a) ∧
      (store = false → MemSame s t ∧
        (∀ j, lo ≤ j → j < c.vl → hasElem x (c.grp d) j → y.elem (c.grp d) j =
          if on j && !bad j then (val j).1 % 2 ^ c.sew
          else if b.z then 0 else x.elem (c.grp d) j) ∧
        (∀ j, j < lo ∨ c.vl ≤ j → y.elem (c.grp d) j = x.elem (c.grp d) j) ∧
        ∀ m v, m < d.val ∨ d.val + c.lmul ≤ m → y.vbyte m v = x.vbyte m v)

/-- VSTREAM binds its group: base, length and stride from its registers, with SEW, LMUL and the format captured and the
cursor at 0, and ends the bindings that overlap the group; VUNBIND ends the binding of its register (R221, R224). -/
def Sys2Proof.Obl.StreamsBind : Prop :=
  ∀ (s : State) (h : Nat) (c : VCtx), (s.agent = .hart h ∨ s.agent = .queue h) → c = vctxOf s → imageBars s = false →
    fld c.vtype 63 1 = 0 →
    let x := s.hart h
    let regs := agentRegs s
    (∀ d b, d.val % c.lmul = 0 → (fmtInt (fmtOf c false b.fmt) = true ∨ c.sew = 16 ∨ c.sew = 32) →
      (b.c.val ≠ 0 → fmtWhole (fmtOf c false b.fmt) = true) →
      ∃ t, exec (.vstream d b) s = .next t ∧ OnlyHart s t h ∧ VecDone s t h ∧
        let y := t.hart h
        y.streams.find? (fun e => e.1 == d.val) = some (d.val,
          { base := rdS regs b.a.val, len := (rdS regs b.b.val).toNat
            stride := if b.c.val = 0 then none else some (rdS regs b.c.val), fmt := fmtOf c false b.fmt
            sew := fld c.vtype 0 3, lm := fld c.vtype 3 3, mfc := c.mfc, cursor := 0, fetched := [] }) ∧
        (∀ e ∈ x.streams, (e.2.grp e.1).overlaps (c.grp d) = false → e ∈ y.streams) ∧
        (∀ e ∈ y.streams, e ∈ x.streams ∨ e.1 = d.val) ∧ SameBut { x with streams := y.streams } y ∧
        SameVec x y ∧ SameMasks x y ∧ SameRegs x y) ∧
    (∀ d, ∃ t, exec (.vunbind d) s = .next t ∧ OnlyHart s t h ∧ VecDone s t h ∧
      let y := t.hart h
      (∀ e, e ∈ y.streams ↔ e ∈ x.streams ∧ ¬(e.1 ≤ d.val ∧ d.val < e.1 + 2 ^ e.2.lm)) ∧
      SameBut { x with streams := y.streams } y ∧ SameVec x y ∧ SameMasks x y ∧ SameRegs x y)

/-- An instruction that reads a bound group reads the next VL elements of the stream, those beyond its length as 0, and
moves the cursor past them; shown for VADD with elements that have arrived (R222, R223, R229). -/
def Sys2Proof.Obl.StreamFeedsReader : Prop :=
  ∀ (s : State) (h : Nat) (d : VReg) (b : VBin) (c : VCtx) (st : Stream) (r : SReg),
    (s.agent = .hart h ∨ s.agent = .queue h) → c = vctxOf s → imageBars s = false → fld c.vtype 63 1 = 0 →
    s.cutAt = none → (s.hart h).popped = [] → startAt s h = 0 → c.vl ≠ 0 →
    (s.hart h).streams = [(b.a.val, st)] → st.sew = fld c.vtype 0 3 → st.lm = fld c.vtype 3 3 → b.src = .s r →
    d.val % c.lmul = 0 → b.a.val % c.lmul = 0 → (c.grp d).overlaps (c.grp b.a) = false →
    (b.k.val ≠ 0 → c.vl ≤ (s.hart h).mlen) →
    (∀ j, j < c.vl → st.cursor + j < st.len →
      ∃ y, st.fetched.find? (fun e => e.1 == st.cursor + j) = some (st.cursor + j, y) ∧ y.fault = none) →
    ∃ t, exec (.vadd d b) s = .next t ∧ VecDone s t h ∧
      let x := s.hart h
      let y := t.hart h
      let elemOf := fun j => if st.len ≤ st.cursor + j then 0
        else match st.fetched.find? (fun e => e.1 == st.cursor + j) with
          | some e => (st.value (st.cursor + j) e.2.bits).1 % 2 ^ c.sew
          | none => 0
      (∃ u, y.streams = [(b.a.val, u)] ∧ u.cursor = st.cursor + c.vl ∧ u.base = st.base ∧ u.len = st.len) ∧
      (∀ j, j < c.vl → hasElem x (c.grp b.a) j → y.elem (c.grp b.a) j = elemOf j) ∧
      (∀ j, j < c.vl → hasElem x (c.grp d) j → hasElem x (c.grp b.a) j → x.kbit b.k.val j = true →
        y.elem (c.grp d) j = (elemOf j + (rdS (agentRegs s) r.val).toNat % 2 ^ c.sew) % 2 ^ c.sew) ∧
      t.mem = s.mem ∧ SameRegs x y ∧ SameMasks x y

/-- VWAIT completes where every active flag already compares as asked: the mask bits of elements 0 to VL − 1 are cleared, and
no byte of memory changes (R225 to R227). -/
def Obligations.FlagWaitCompletes : Prop :=
  ∀ (s : State) (h : Nat) (c : VCtx) (d : KReg) (b : VWt) (addr : W → Nat), VecReady s h c → QueueDone s h →
    (s.hart h).wait = none → c.sew = 64 → b.a.val % c.lmul = 0 → b.b.val % c.lmul = 0 → c.vl ≤ (s.hart h).mlen →
    (∀ j, j < c.vl → (s.hart h).kbit b.k.val j = true →
      let va := wd ((s.hart h).elem (c.grp b.a) j)
      let want := (s.hart h).elem (c.grp b.b) j
      va.toNat % 8 = 0 ∧ PlainAt s (rqOf s h) .vector .read va 8 (addr va) ∧
        (if b.ge then want ≤ s.natAt (addr va) 8 else s.natAt (addr va) 8 = want)) →
    ∃ t, exec (.vwait d b) s = .next t ∧ OnlyHart s t h ∧ VecDone s t h ∧
      (∀ j, j < c.vl → j < 16384 → d.val ≠ 0 → (t.hart h).kbit d.val j = false) ∧
      (∀ n j, n ≠ d.val ∨ c.vl ≤ j → (t.hart h).kbit n j = (s.hart h).kbit n j) ∧ SameVec (s.hart h) (t.hart h) ∧
      SameRegs (s.hart h) (t.hart h) ∧ SameBut (s.hart h) (t.hart h)

namespace Sys2Proof.Obl
open Sys2Proof.Machine

/-- The groups of an instruction that depends on VTYPE and executes in a vector queue, and whether they lie where R188,
R190 or R210 makes the form illegal beyond their alignment: the opcodes 0x62 to 0xB6, MGATH, MOPA, MOPS, MRD and MWR
(R88). -/
def depForm (c : VCtx) (x : Hart) (regs : Tab W) (i : Instr) : Option (List Grp × Bool) :=
  let lane (l : Lane) : List Grp × Bool := (l.dst :: l.srcs, l.clash)
  let mem (l : VLayout) (store : Bool) (d : VReg) (b : VMem) : List Grp × Bool :=
    (c.grp d :: (if l = .indexed then [c.index b.b] else []), decide (32 < d.val + fieldCount l b * c.lmul) ||
      (decide (l = .indexed) && !store && (c.grp d).overlaps (c.index b.b)))
  (intLane c x regs i).map lane <|> (mixLane c x regs i).map lane <|> (floatLane c x regs i).map lane <|>
  (shuffleLane c x regs i).map lane <|> (maskLane c x regs i).map (fun l => (l.srcs, false)) <|>
  (scalarLane c x regs i).map (fun l => (l.srcs, false)) <|>
  (vmemOf i).map (fun e => mem e.1 e.2.1 e.2.2.1 e.2.2.2.1) <|>
  (vblockOf i).map (fun e => mem .packed e.1 e.2.1 e.2.2.1) <|>
  (peerOf i).map (fun e =>
    ([c.grp e.2.1, c.index e.2.2.1.b], !e.1 && (c.grp e.2.1).overlaps (c.index e.2.2.1.b))) <|>
  match i with
  | .vbcast d _ => some ([c.grp d], false)
  | .vcompress d b => some ([c.grp d, c.grp b.a], (c.grp d).overlaps (c.grp b.a))
  | .vstream d _ => some ([c.grp d], false)
  | .vunbind _ => some ([], false)
  | .vwait _ b => some ([c.grp b.a, c.grp b.b], false)
  | .mopa _ a b => some ([c.grp a, c.grp b], false)
  | .mops _ a b => some ([c.grp a, c.grp b], false)
  | .mgath _ b => some ([c.index b.b], false)
  | .mrd d _ => some ([c.grp d], false)
  | .mwr d _ => some ([c.grp d], false)
  | _ => none

/-- Hart `h`, `x` until then, has become `y` by a precise trap of a vector instruction at element `idx`: TakeTrap of R387
with the queue image `img` and the scalar resume point `resume` (R388), and nothing else has changed. -/
def QueueEntered (s : State) (h : Nat) (x y : Hart) (code : Nat) (tval epc : W) (img : List VEntry) (resume : W)
    (idx : Nat) : Prop :=
  y.pc = handlerOf s h code ∧ y.tcause = wd code ∧ y.tval = tval ∧ y.tepc = wd (fld epc 0 57) ∧
    y.tidx = wd idx ∧ y.vq = [] ∧ y.image = some img ∧ y.resumePc = resume ∧ fld y.tstat 11 1 = 1 ∧
    fld y.tstat 12 4 = img.length ∧ fld y.tstat 63 1 = fld x.vtype 63 1 ∧ fld y.tstat 30 18 = fld x.vl 0 18 ∧
    fld y.tstat 22 8 = fld x.vtype 0 8 ∧ fld y.tstat 8 1 = fld x.hstat 8 1 ∧ fld y.tstat 3 1 = fld x.hstat 0 1 ∧
    fld y.tstat 1 2 = fld x.hstat 1 2 ∧ fld y.hstat 0 1 = 1 ∧ fld y.hstat 1 2 = (targetOf x code).code ∧
    fld y.hstat 3 61 = fld x.hstat 3 61 ∧
    y.mframe = (if targetOf x code = .m then
      { hstat := x.hstat, tcause := x.tcause, tval := x.tval, tepc := x.tepc, tstat := x.tstat, tidx := x.tidx,
        valid := true } else x.mframe) ∧
    { y with pc := x.pc, nh := x.nh, tcause := x.tcause, tval := x.tval, tepc := x.tepc, tstat := x.tstat,
             tidx := x.tidx, hstat := x.hstat, mframe := x.mframe, image := x.image, resumePc := x.resumePc, vq := x.vq,
             wait := x.wait, vecNo := x.vecNo } = x

/-- Hart `h` has taken a precise trap of its vector queue before any element, and nothing else has changed. -/
def QueueTrapped (s t : State) (h code : Nat) (tval epc : W) (img : List VEntry) (resume : W) : Prop :=
  OnlyHart s t h ∧ QueueEntered s h (s.hart h) (t.hart h) code tval epc img resume 0

/-- The first address of a list of which `p` holds. -/
def FirstOf (p : W → Prop) (l : List W) (va : W) : Prop := ∃ a b, l = a ++ va :: b ∧ p va ∧ ∀ v ∈ a, ¬p v

/-- A read at `va` translates to bytes that its home gives as poisoned: a poisoned part of a scratchpad or of backed DRAM, or a
line that another key has written (R240, R248). -/
def PoisonAt (s : State) (r : Rq) (va : W) (n : Nat) : Prop :=
  ∃ acc p e, resolve s r .vector .read va n = (.ok (acc, p), e) ∧ acc.ub = false ∧ acc.lt = 0 ∧
    reach s r.stack (homeStack s acc p) = .ok ∧ FreeAccess s r .vector .read va n acc p ∧
    ((∃ c o, p = .spad c o ∧ ∃ q ∈ partsOf (spadAddr c o) n, s.poisoned q = true) ∨
      ∃ a w, p = .dram a w ∧
        (∀ q ∈ partsOf a n, tget 0 s.softErr q = 0 ∧ ∀ v < 2, ∀ e ∈ s.stale, e.1 ≠ 2 * q + v) ∧
        (∀ l ∈ linesOf a n, tget 0 s.tags l < 8) ∧
        ((∃ q ∈ partsOf a n, s.poisoned q = true) ∨ ∃ l ∈ linesOf a n, tget 0 s.keyIds l ≠ acc.key))

/-- The fault of an element whose fields of `n` bytes lie at these addresses (R213): translation before permission before
misalignment, and for a load poison last; of each, the first field that meets it gives TVAL. -/
def ElemFault (s : State) (r : Rq) (k : AKind) (n : Nat) (vas : List W) (addr : W → Nat) (code : Nat) (va : W) : Prop :=
  let res := fun v => (resolve s r .vector k v n).1
  let lost := fun v => ∃ w j, res v = .error (.trap 0x04 w j)
  let denied := fun v => ∃ w j, res v = .error (.trap 0x05 w j)
  let found := fun v => ∃ a, res v = .ok a
  (code = 0x04 ∧ FirstOf lost vas va) ∨
  (code = 0x05 ∧ (∀ v ∈ vas, denied v ∨ found v) ∧ FirstOf denied vas va) ∨
  (code = 0x06 ∧ (∀ v ∈ vas, ∃ a, res v = .ok a ∧ a.1.lt = 0) ∧ FirstOf (fun v => v.toNat % n ≠ 0) vas va) ∨
  (code = 0x08 ∧ k = .read ∧
    (∀ v ∈ vas, v.toNat % n = 0 ∧ (PlainAt s r .vector .read v n (addr v) ∨ PoisonAt s r v n)) ∧
    FirstOf (fun v => PoisonAt s r v n) vas va)

/-- A store of `n` bytes at `va` translates to a line of backed DRAM, at `a`, that another key has written (R248). -/
def OtherKeyAt (s : State) (r : Rq) (va : W) (n a : Nat) : Prop :=
  ∃ acc w e, resolve s r .vector .write va n = (.ok (acc, .dram a w), e) ∧ acc.ub = false ∧ acc.lt = 0 ∧
    reach s r.stack (homeStack s acc (.dram a w)) = .ok ∧ FreeAccess s r .vector .write va n acc (.dram a w) ∧
    ∃ l ∈ linesOf a n, tget 0 s.keyIds l ≠ acc.key

end Sys2Proof.Obl

open Sys2Proof Sys2Proof.Machine Sys2Proof.Obl

/-- A plain vector load or store whose element `j` is the first that faults traps precisely: TVAL is the faulting address and
TIDX the element; the elements below `j` are done, with their flags, and no other element, register or byte of memory changes
(R114, R213, R240, R248, R387, R388). -/
def Sys2Proof.Obl.ElementTraps : Prop :=
  ∀ (s : State) (h : Nat) (i : Instr) (c : VCtx) (l : VLayout) (store : Bool) (d : VReg) (b : VMem) (off : W) (addr : W → Nat)
    (code j : Nat) (va : W),
    VecReady s h c → vmemOf i = some (l, store, d, b, off) → CanTrap s h code →
    let x := s.hart h
    let r := rqOf s h
    let k := if store then AKind.write else AKind.read
    let fmt := fmtOf c store b.fmt
    let m := elemBytes fmt
    let lo := startAt s h
    let n := fieldCount l b
    let fd := fieldAt c x (agentRegs s) l d b off fmt
    let val := fun j q => if store then toFmt c.sew (fld c.mfc 15 3) fmt (x.elem (fd j q).grp j)
      else fromFmt c.sew (fld c.mfc 15 3) fmt (s.natAt (addr (fd j q).va) m / 2 ^ (fd j q).bit % 2 ^ fmtBits fmt)
    let before := storeOrder x { c with vl := j } b.k lo n
    VmemReady x c l store d b fmt → lo ≤ j → j < c.vl → x.kbit b.k.val j = true →
    (∀ p q, lo ≤ p → p < j → x.kbit b.k.val p = true → q < n →
      (fd p q).va.toNat % m = 0 ∧ PlainAt s r .vector k (fd p q).va m (addr (fd p q).va)) →
    ElemFault s r k m ((upto 0 n).map (fun q => (fd j q).va)) addr code va →
    (s.agent = .hart h → x.vq = []) → (s.agent = .queue h → x.await = none ∧ x.vq ≠ [] ∧ x.vq.length ≤ 8) →
    ∃ t y, exec i s = .next t ∧ (∀ k, k ≠ h → t.hart k = s.hart k) ∧
      y = { x with v := y.v, fflags := y.fflags, satf := y.satf } ∧
      (s.agent = .hart h → QueueEntered s h y (t.hart h) code va x.pc [entryOf x i] (nextPC x.pc x.nh) j) ∧
      (s.agent = .queue h → QueueEntered s h y (t.hart h) code va c.pc (x.vq.map fun e => { e with start := none }) x.pc j) ∧
      AddedFlags x y (before.foldl (fun a p => a ||| (val p.1 p.2).2) 0) ∧
      (store = true → OnlyStored s t ∧ SameVec x y ∧ ∀ a, t.byteAt a = before.foldl
        (fun m p => putField m (addr (fd p.1 p.2).va) (fd p.1 p.2).bit (fmtBits fmt) (val p.1 p.2).1) s.byteAt a) ∧
      (store = false → { t with harts := s.harts } = s ∧
        (∀ p q, lo ≤ p → p < j → q < n → hasElem x (fd p q).grp p → y.elem (fd p q).grp p =
          if x.kbit b.k.val p then (val p q).1 % 2 ^ c.sew else if b.z then 0 else x.elem (fd p q).grp p) ∧
        (∀ p q, p < lo ∨ j ≤ p → q < n → y.elem (fd p q).grp p = x.elem (fd p q).grp p) ∧
        ∀ g v, g < d.val ∨ d.val + n * c.lmul ≤ g → y.vbyte g v = x.vbyte g v)

/-- A plain vector store completes where homes refuse fields for their key: a refused field, whose line the store does not write
whole, writes nothing and leaves a refusal with its address and element, in ascending order; every other field is written (R214,
R248; that the fields of one element are refused each by itself is the model's choice of log 87). -/
def Sys2Proof.Obl.ElementRefusals : Prop :=
  ∀ (s : State) (h : Nat) (i : Instr) (c : VCtx) (l : VLayout) (d : VReg) (b : VMem) (off : W) (addr : W → Nat)
    (refused : Nat → Nat → Bool),
    VecReady s h c → vmemOf i = some (l, true, d, b, off) → (∀ e ∈ s.refusals, e.1 < s.fresh) →
    let x := s.hart h
    let r := rqOf s h
    let fmt := fmtOf c true b.fmt
    let m := elemBytes fmt
    let lo := startAt s h
    let n := fieldCount l b
    let fd := fieldAt c x (agentRegs s) l d b off fmt
    let at_ := fun j q => addr (fd j q).va
    let val := fun j q => toFmt c.sew (fld c.mfc 15 3) fmt (x.elem (fd j q).grp j)
    let todo := storeOrder x c b.k lo n
    VmemReady x c l true d b fmt →
    (∀ p ∈ todo, (fd p.1 p.2).va.toNat % m = 0 ∧
      (refused p.1 p.2 = false → PlainAt s r .vector .write (fd p.1 p.2).va m (at_ p.1 p.2)) ∧
      (refused p.1 p.2 = true → OtherKeyAt s r (fd p.1 p.2).va m (at_ p.1 p.2) ∧
        ∃ a, a / 128 = at_ p.1 p.2 / 128 ∧ ∀ j, j < c.vl → x.kbit b.k.val j = true → ∀ q, q < n →
          a < at_ j q ∨ at_ j q + m ≤ a)) →
    (∀ j, j < lo → x.kbit b.k.val j = true → ∀ q, q < n → PlainAt s r .vector .write (fd j q).va m (at_ j q)) →
    ∃ t, exec i s = .next t ∧ VecDone s t h ∧ OnlyStored s { t with refusals := s.refusals, fresh := s.fresh } ∧
      (∀ a, t.byteAt a = (todo.filter (fun p => !refused p.1 p.2)).foldl
        (fun m p => putField m (at_ p.1 p.2) (fd p.1 p.2).bit (fmtBits fmt) (val p.1 p.2).1) s.byteAt a) ∧
      t.refusals.filter (fun e => decide (e.1 < s.fresh)) = s.refusals ∧
      (t.refusals.filter (fun e => decide (s.fresh ≤ e.1))).map (fun e => (e.2.hart, e.2.va, e.2.elem, e.2.cause)) =
        (todo.filter (fun p => refused p.1 p.2)).map (fun p => (h, (fd p.1 p.2).va.toNat, p.1, 0x0B)) ∧
      AddedFlags x (t.hart h) (todo.foldl (fun a p => a ||| (val p.1 p.2).2) 0) ∧
      (∀ k, k ≠ h → t.hart k = s.hart k) ∧ SameVec x (t.hart h) ∧ SameMasks x (t.hart h) ∧ SameRegs x (t.hart h) ∧
      SameBut x (t.hart h)

/-- With VTYPE.ILL = 1 every instruction that depends on VTYPE, in a form that is not illegal, takes VILL with TVAL the
VTYPE (R88, R95, R96): at the head of a queue and as a hart issues it, with the queue image, TEPC at the instruction and the
scalar stream to resume where it stood or behind the instruction (R387, R388); COPY, whose descriptor does not make it
illegal, and COPYX as scalar instructions. The bits 63:57 of the handler's address (log 63) and that COPY looks at its
descriptor before VTYPE (log 49) are the model's choices. -/
def Obligations.IllegalVtypeTraps : Prop :=
  ∀ (s : State) (h : Nat) (i : Instr), CanTrap s h 0x02 →
    (∀ c gs clash, c = vctxOf s → fld c.vtype 63 1 = 1 → imageBars s = false →
      (s.core (h / 8)).resident = some (s.hart h).cid → depForm c (s.hart h) (agentRegs s) i = some (gs, clash) →
      (∀ g ∈ gs, g.base % g.g = 0) → clash = false →
      (∀ e r, s.agent = .queue h → (s.hart h).await = none → (s.hart h).vq = e :: r → r.length < 8 →
        ∃ t, exec i s = .next t ∧
          QueueTrapped s t h 0x02 e.vtype e.pc ((e :: r).map fun v => { v with start := none }) (s.hart h).pc) ∧
      (s.agent = .hart h → (s.hart h).vq = [] →
        ∃ t, exec i s = .next t ∧
          QueueTrapped s t h 0x02 (s.hart h).vtype (s.hart h).pc [entryOf (s.hart h) i]
            (nextPC (s.hart h).pc (s.hart h).nh))) ∧
    (s.agent = .hart h → (s.hart h).vq = [] → fld (s.hart h).vtype 63 1 = 1 →
      (∀ b a, i = .copy b a →
        (let off := ((s.hart h).rd a).toNat
         off % 64 ≠ 0 ∨ spBytes s.sdp < off + 64 ∨
          (NoPosted s h ∧ (s.hart h).colPend = 0 ∧ descOk (s.natAt (spadAddr (h / 8) off) 64) = true)) →
        TrapsAt s h i 0x02 (s.hart h).vtype) ∧
      (∀ x, i = .copyx x → TrapsAt s h i 0x02 (s.hart h).vtype))

namespace Sys2Proof.Obl
open Sys2Proof.Machine

/-- Hart `h` executes a matrix instruction under `c`, itself or at the head of its queue: its context is resident on the core
and no drain deadline cuts it (R195, R271, R390). -/
def MatReady (s : State) (h : Nat) (c : VCtx) : Prop :=
  (s.agent = .hart h ∨ s.agent = .queue h) ∧ c = vctxOf s ∧ imageBars s = false ∧
    (s.core (h / 8)).resident = some (s.hart h).cid ∧ s.cutAt = none ∧ (s.hart h).streams = [] ∧ (s.hart h).popped = []

/-- Element (i, j) of a tile (R236, R270). -/
def tileEl (k : Core) (t i j : Nat) : Nat := (tget 0 k.tiles (t * 8192 + i * 128 + j)).toNat
/-- Element `j` of a row of latch A or B (R270). -/
def latEl (k : Core) (b : Bool) (p j : Nat) : Nat :=
  if b then (tget 0 k.latB (p * 128 + j)).toNat else (tget 0 k.latA (p * 64 + j)).toNat

/-- One multiply-accumulate of a k-step on an element and its flags so far, rounded once to FP32 with RNE (R131, R132). -/
def mac (a b : FVal) (acc : Nat × Nat) : Nat × Nat :=
  let r := r32 (fFma a b (v32 acc.1))
  (r.1 % 2 ^ 32, acc.2 ||| r.2)

/-- The tile that a k-step instruction writes, and each element after it with the flags that its steps raise (R275 to
R278). -/
def tileAfter (c : VCtx) (x : Hart) (k : Core) : Instr → Option (Tile × (Nat → Nat → Nat × Nat))
  | .mzero d => some (d, fun _ _ => (0, 0))
  | .mopa d a b => some (d, fun i j =>
      if i < c.vl ∧ j < c.vl then
        mac ((layOf c.sew).val (x.elem (c.grp a) i)) ((layOf c.sew).val (x.elem (c.grp b) j)) (tileEl k d.val i j, 0)
      else (tileEl k d.val i j, 0))
  | .mops d a b => some (d, fun i j =>
      if i < c.vl ∧ j < c.vl then
        mac ((layOf c.sew).val (x.elem (c.grp a) i)).negate ((layOf c.sew).val (x.elem (c.grp b) j)) (tileEl k d.val i j, 0)
      else (tileEl k d.val i j, 0))
  | .mopal d km1 => some (d, fun i j =>
      (upto 0 (km1.toNat + 1)).foldl (fun acc p => mac (v32 (latEl k false p i)) (v32 (latEl k true p j)) acc)
        (tileEl k d.val i j, 0))
  | .mopax d m => some (d, fun i j =>
      (((upto 0 48).filter (fun p => x.kbit m.val p)).zipIdx).foldl
        (fun acc p => mac (v32 (latEl k false p.1 i)) (v32 (latEl k true p.2 j)) acc) (tileEl k d.val i j, 0))
  | _ => none

/-- What MOPA and MOPS ask of their groups, VTYPE and SEW (R88, R188, R276). -/
def tileReady (c : VCtx) (i : Instr) : Prop :=
  ∀ d a b, i = .mopa d a b ∨ i = .mops d a b →
    fld c.vtype 63 1 = 0 ∧ (c.sew = 16 ∨ c.sew = 32) ∧ a.val % c.lmul = 0 ∧ b.val % c.lmul = 0

/-- Only hart `h` and its core have changed. -/
def OnlyCore (s t : State) (h : Nat) : Prop :=
  { t with harts := s.harts, cores := s.cores } = s ∧ (∀ k, k ≠ h → t.hart k = s.hart k) ∧
    ∀ k, k ≠ h / 8 → t.core k = s.core k

/-- A hart past a matrix instruction that writes no register of it (R273). -/
def MatDone (s t : State) (h : Nat) : Prop :=
  VecDone s t h ∧ SameVec (s.hart h) (t.hart h) ∧ SameMasks (s.hart h) (t.hart h) ∧ SameRegs (s.hart h) (t.hart h) ∧
    SameBut (s.hart h) (t.hart h)

/-- The key of the timeline of a core's matrix sequencer (`m`), TLC1, or of its copy sequencer, TLC0 (R260). -/
def seqTl (s : State) (m : Bool) (c : Nat) : Nat :=
  tlKey (s.hart ((s.core c).seq m).owner).cid c (if m then 1 else 0)

/-- A matrix instruction is ready to execute under `c`, in hart `h` or, where `w` is true, in the matrix sequencer that the
hart owns: then no earlier operation of the sequencer is open and no store of it waits (R97, R260, R288). -/
def MatReadyBy (w : Bool) (s : State) (h : Nat) (c : VCtx) : Prop :=
  if w then
    s.agent = .mseq (h / 8) ∧ (s.core (h / 8)).mseq.owner = h ∧ c = vctxOf s ∧ (s.hart h).streams = [] ∧
      (s.hart h).popped = [] ∧ (s.core (h / 8)).mseq.refused = none ∧ (s.tl (seqTl s true (h / 8))).done = [] ∧
      (s.tl (seqTl s true (h / 8))).acc = (s.tl (seqTl s true (h / 8))).cnt ∧ ∀ p ∈ s.winParts, p.who ≠ 512 + h / 8
  else MatReady s h c

/-- The row at which the instruction starts: TIDX of its hart or of the sequencer (R42, R273). -/
def startBy (w : Bool) (s : State) (h : Nat) : Nat := if w then fld (s.core (h / 8)).mseq.tidx 0 18 else startAt s h

/-- The requester of a matrix instruction (R237, R288). -/
def rqBy (w : Bool) (s : State) (h : Nat) : Rq :=
  if w then { cid := (s.hart h).cid, stack := h / 8 / 4, lvl := (s.core (h / 8)).mseq.level, who := 512 + h / 8 }
  else rqOf s h

/-- Only the hart and its core have changed, and for a sequencer its timeline. -/
def OnlyCoreBy (w : Bool) (s t : State) (h : Nat) : Prop :=
  if w then { t with harts := s.harts, cores := s.cores, timelines := s.timelines } = s ∧ (∀ k, k ≠ h → t.hart k = s.hart k) ∧
    ∀ k, k ≠ h / 8 → t.core k = s.core k
  else OnlyCore s t h

/-- The matrix sequencer is past its instruction with the flags of `f` added to its own, and the instruction has completed
under the next number of TLC1 (R110, R260). -/
def SeqDone (s t : State) (h f : Nat) : Prop :=
  let q := (s.core (h / 8)).mseq
  let k := seqTl s true (h / 8)
  (t.core (h / 8)).mseq = { q with pc := nextPC q.pc q.nh, tidx := 0, fflags := q.fflags ||| wd (f % 32)
                                   satf := q.satf ||| wd (f / 32 % 2) } ∧
    t.tl k = { s.tl k with acc := (s.tl k).cnt + 1, cnt := (s.tl k).cnt + 1 } ∧ ∀ j, j ≠ k → t.tl j = s.tl j

/-- The instruction has completed, wrote no register of the hart, and added the flags of `f`. -/
def MatDoneBy (w : Bool) (s t : State) (h f : Nat) : Prop :=
  if w then SeqDone s t h f ∧ t.hart h = { s.hart h with retiredAt := s.clock }
  else MatDone s t h ∧ AddedFlags (s.hart h) (t.hart h) f

/-- Core `y` but for the sequencer that ran the instruction, which is as in `k`. -/
def coreBy (w : Bool) (y k : Core) : Core := { y with mseq := if w then k.mseq else y.mseq }

/-- The tile elements of MRD as a lane (R282, R283). -/
def mrdLane (c : VCtx) (k : Core) (d : VReg) (b : MMove) : Lane :=
  { dst := c.grp d, srcs := [], clash := false, bad := floatBad c, k := b.k, z := b.z, skip := fun _ => false
    f := fun i =>
      let e := if b.col then tileEl k b.t.val i b.idx.toNat else tileEl k b.t.val b.idx.toNat i
      if c.sew = 32 then (e, 0) else rnd layBF16 c.rm (v32 e, 0) }

/-- The elements that a tile move reaches (R283): a column has 64, a row 128. -/
def moveLen (c : VCtx) (b : MMove) : Nat := min c.vl (if b.col then 64 else 128)

/-- The tile loads and stores: whether they store, tile, tail and offset (R284). -/
def mtileOf : Instr → Option (Bool × Tile × MTile × W)
  | .mldTl2 d b => some (false, d, b, 0)
  | .mldTl3 d b off => some (false, d, b, off.signExtend 64)
  | .mstTl2 d b => some (true, d, b, 0)
  | .mstTl3 d b off => some (true, d, b, off.signExtend 64)
  | _ => none

/-- The address of row `r` of a tile load or store (R285). -/
def mtileVa (regs : Tab W) (b : MTile) (off : W) (fmt r : Nat) : W :=
  rdS regs b.a.val + off + wd r * (if b.c.val = 0 then wd (rowBytes fmt 128) else rdS regs b.c.val)

/-- The bytes of `n` from `va` are plain through the ENGINE port. -/
def EngineRange (s : State) (r : Rq) (k : AKind) (va : W) (n : Nat) (addr : W → Nat) : Prop :=
  ∀ e ∈ piecesOf va n, PlainAt s r .engine k e.1 e.2 (addr e.1) ∧ ∀ i, i < e.2 → addr (e.1 + wd i) = addr e.1 + i

/-- A unit of an MST stored into memory (R285). -/
def putUnit (addr : W → Nat) (m : Nat → Byte) (u : MUnit) : Nat → Byte :=
  if u.bits < 8 then putField m (addr u.va) u.bit u.bits u.data
  else (upto 0 u.n).foldl (fun m k => fun q => if q = addr (u.va + wd k) then BitVec.ofNat 8 (u.data / 2 ^ (8 * k)) else m q) m

/-- The object of a transaction barrier at a scratchpad offset (R261). -/
def barAt (s : State) (core off : Nat) : Nat := s.natAt (spadAddr core off) 16
/-- The fields of a barrier object: PHASE, OVF, ERR, PARR, IARR, PSEC (R261). -/
def BarIs (o phase ovf err parr iarr : Nat) (psec : Int) : Prop :=
  o % 16 = phase ∧ o / 16 % 2 = ovf ∧ o / 32 % 2 = err ∧ o / 2 ^ 8 % 65536 = parr ∧ o / 2 ^ 24 % 65536 = iarr ∧
    sInt 32 (o / 2 ^ 40) = psec
/-- The fields after the completion check: at PARR = 0 and PSEC = 0 the phase advances and PARR takes IARR (R261). -/
def BarChecked (o phase ovf err parr iarr : Nat) (psec : Int) : Prop :=
  if parr = 0 ∧ psec = 0 then BarIs o ((phase + 1) % 16) ovf err iarr iarr 0 else BarIs o phase ovf err parr iarr psec

/-- A barrier offset that R304 accepts. -/
def barOk (s : State) (off : Nat) : Prop := off % 16 = 0 ∧ off + 16 ≤ (if s.sdp then 0x600000 else 0x300000)

/-- Only the object of a barrier of core `c` has changed in memory, and its reserved bits have not (R6, R261). -/
def BarWritten (s t : State) (c off : Nat) : Prop :=
  (∀ a, (a < spadAddr c off ∨ spadAddr c off + 16 ≤ a) → t.byteAt a = s.byteAt a) ∧
    barAt t c off / 64 % 4 = barAt s c off / 64 % 4 ∧ barAt t c off / 2 ^ 72 = barAt s c off / 2 ^ 72

/-- A barrier instruction of a hart updates its object and nothing else of memory; its program counter advances. -/
def BarUpdated (s t : State) (h off : Nat) : Prop :=
  BarWritten s t (h / 8) off ∧
    { t with harts := s.harts, mem := s.mem, poison := s.poison, lost := s.lost } = s ∧ (∀ k, k ≠ h → t.hart k = s.hart k) ∧
    Past (s.hart h) (t.hart h) ∧ SameRegs (s.hart h) (t.hart h)

/-- The copy that a hart's COPY or COPYX adds to its engine, but for its number and fields of its kind (R292, R293). -/
def CopyOf (s : State) (h : Nat) (c : VCtx) (bar : SReg) (y : CopyCtx) : Prop :=
  y.cid = (s.hart h).cid ∧ y.core = h / 8 ∧ y.hart = h ∧ y.seq = false ∧ y.node = none ∧ y.vl = c.vl ∧ y.sew = c.sew ∧
    y.gran = 0 ∧ y.fault = none ∧ y.i1 = 0 ∧ y.i2 = 0 ∧ y.i3 = 0 ∧ y.boff = 0 ∧
    y.bar = (if bar.val = 0 then none else some ((s.hart h).rd bar).toNat)

/-- A copy with every field at zero, for a place in a queue that holds none. -/
def CopyOf.none : CopyCtx :=
  { x := false, opno := 0, cid := 0, core := 0, hart := 0, seq := false, band := 0, node := Option.none, pc := 0, sew := 0,
    vl := 0, bar := Option.none, desc := 0, body := 0, i1 := 0, i2 := 0, i3 := 0, boff := 0, gran := 0, haddr := 0,
    paddr := 0, wm1 := 0, dir := false, sx := false, took := 0, fault := Option.none }

/-- A hart may hand a copy to its engine now (R56, R292, R293, R299). -/
def CopyReady (s : State) (h : Nat) (c : VCtx) (bar : SReg) : Prop :=
  s.agent = .hart h ∧ c = vctxOf s ∧ (s.hart h).vq = [] ∧ NoPosted s h ∧ (s.hart h).colPend = 0 ∧
    (s.core (h / 8)).nodeCopy = none ∧ sptWaits s h = false ∧
    (s.core (h / 8)).cfault = none ∧ (s.core (h / 8)).copies.length < 4 ∧ fld c.vtype 63 1 = 0 ∧
    (bar.val ≠ 0 → barOk s ((s.hart h).rd bar).toNat)

/-- Accepted under number `n` of TLC0: queued, or completed at once where it moves nothing (R260, R292, R295). -/
def CopyAccepted (s t : State) (h n : Nat) (empty : Prop) (p : CopyCtx → Prop) : Prop :=
  let k := tlKey (s.hart h).cid (h / 8) 0
  (t.tl k).acc = n ∧ (∀ j, j ≠ k → t.tl j = s.tl j) ∧
    (¬empty → (t.tl k).cnt = (s.tl k).cnt ∧
      ∃ y, y.opno = n ∧ p y ∧ t.core (h / 8) = { s.core (h / 8) with copies := (s.core (h / 8)).copies ++ [y] }) ∧
    (empty → (n ≤ (t.tl k).cnt ∨ n ∈ (t.tl k).done) ∧ t.core (h / 8) = s.core (h / 8)) ∧
    { t with harts := s.harts, cores := s.cores, timelines := s.timelines } = s ∧
    Past (s.hart h) (t.hart h) ∧ SameRegs (s.hart h) (t.hart h) ∧ (∀ j, j ≠ h → t.hart j = s.hart j) ∧
    ∀ j, j ≠ h / 8 → t.core j = s.core j

/-- No sequencer is owned by the hart. -/
def OwnsNone (s : State) (h : Nat) : Prop :=
  ∀ m : Bool, ((s.core (h / 8)).seq m).phase = .free ∨ ((s.core (h / 8)).seq m).owner ≠ h

/-- FFLAGS or SATF of a hart with those of the sequencers that it owns (R110, R289). -/
def ownedFlags (s : State) (h : Nat) (f : Seq → W) (w : W) : W :=
  (upto 0 2).foldl (fun a n =>
    let q := (s.core (h / 8)).seq (n == 0)
    if q.owner = h ∧ q.phase ≠ .free then a ||| f q else a) w

/-- Every copy that the copy sequencer of a core accepted has left the engine. -/
def CopiesOver (s : State) (c : Nat) : Prop :=
  ∀ x ∈ (s.core c).copies, ¬(x.seq = true ∧ x.cid = (s.hart (s.core c).cseq.owner).cid)

/-- The matrix sequencer of a core, or its copy sequencer. -/
def seqAgent (m : Bool) (c : Nat) : Agent := if m then .mseq c else .cseq c

/-- The classes of the sequencers (R97). -/
def inSeqClass (m : Bool) : Instr → Bool
  | .nop | .b _ | .rdv | .fence _ | .tbinit _ _ | .tbarrive _ | .tbexpect _ _ _ | .tbwait _ _ | .tlwait _ _ _ | .tlread _ _ _ => true
  | .mzero _ | .mopa _ _ _ | .mops _ _ _ | .mgath _ _ | .mopal _ _ | .mopax _ _ | .mrd _ _ | .mwr _ _ | .mldTl2 _ _ | .mldTl3 _ _ _
  | .mstTl2 _ _ | .mstTl3 _ _ _ => m
  | .copy _ _ | .copyx _ => !m
  | _ => false

/-- A sequencer is `z` and nothing else of the cores has changed. -/
def SeqBecomes (s t : State) (m : Bool) (c : Nat) (z : Seq) : Prop :=
  t.core c = (if m then { s.core c with mseq := z } else { s.core c with cseq := z }) ∧ ∀ g, g ≠ c → t.core g = s.core g

/-- An engine stop (R290): the sequencer stops at its instruction with the fault word, its timeline holds the error, and
nothing else changes; `va` is the address that it records, where the rules give one. -/
def SeqStopped (s t : State) (m : Bool) (c cause idx : Nat) (va : Option W) : Prop :=
  let q := (s.core c).seq m
  let k := seqTl s m c
  let fw := wd (cause * 2 ^ 40 + (if m then 0 else 1) * 2 ^ 38 + idx)
  ∃ v, (∀ w, va = some w → v = w) ∧
    SeqBecomes s t m c { q with phase := .stopped, fword := fw, fva := v, fpc := q.pc, tidx := wd idx } ∧
    t.tl k = { s.tl k with err := some { fword := fw, va := v, pc := q.pc } } ∧ (∀ j, j ≠ k → t.tl j = s.tl j) ∧
    { t with cores := s.cores, timelines := s.timelines } = s

/-- The matrix sequencer's instruction has its number on TLC1 and nothing else has changed (R260). -/
def Numbered (s u : State) (c : Nat) : Prop :=
  { u with timelines := s.timelines } = s ∧ (∀ j, j ≠ seqTl s true c → u.tl j = s.tl j) ∧
    u.tl (seqTl s true c) = { s.tl (seqTl s true c) with acc := (s.tl (seqTl s true c)).acc + 1 }

/-- The harts of the crew, or of the band, of hart `h` (R309). -/
def crewOf_ (s : State) (h : Nat) : List Nat :=
  match s.band? (s.hart h).band with
  | none => [h]
  | some b => (b.crews.find? (fun c => c.contains h)).getD [h]
/-- The harts of the band of hart `h`. -/
def bandOf_ (s : State) (h : Nat) : List Nat :=
  match s.band? (s.hart h).band with
  | none => [h]
  | some b => b.crews.flatten

end Sys2Proof.Obl

open Sys2Proof Sys2Proof.Machine Sys2Proof.Obl

/-- The k-step instructions of a hart, or of the matrix sequencer where `w` is true. -/
def Sys2Proof.Obl.TileProductsBy (w : Bool) : Prop :=
  ∀ (s : State) (h : Nat) (i : Instr) (c : VCtx) (d : Tile) (f : Nat → Nat → Nat × Nat), MatReadyBy w s h c →
    tileAfter c (s.hart h) (s.core (h / 8)) i = some (d, f) → tileReady c i →
    ∃ t, exec i s = .next t ∧ OnlyCoreBy w s t h ∧
      MatDoneBy w s t h ((upto 0 (64 * 128)).foldl (fun a e => a ||| (f (e / 128) (e % 128)).2) 0) ∧
      let k := s.core (h / 8)
      let y := t.core (h / 8)
      (∀ p q, p < 64 → q < 128 → tileEl y d.val p q = (f p q).1) ∧
      (∀ u p q, u < 8 → u ≠ d.val → p < 64 → q < 128 → tileEl y u p q = tileEl k u p q) ∧
      { coreBy w y k with tiles := k.tiles } = k

/-- MZERO, MOPA, MOPS, MOPAL and MOPAX give every element of their tile the value of R275 to R278, k-steps in order and each
rounded once, add the flags of every step, and leave every other tile, the latches, memory and the hart's other registers
(R110, R131, R132, R270, R273). -/
def Obligations.TileProducts : Prop := TileProductsBy false

/-- MWR in a hart, or in the matrix sequencer where `w` is true. -/
def Sys2Proof.Obl.TileWritesBy (w : Bool) : Prop :=
  ∀ (s : State) (h : Nat) (c : VCtx) (d : VReg) (b : MMove), MatReadyBy w s h c → fld c.vtype 63 1 = 0 →
    (c.sew = 16 ∨ c.sew = 32) → d.val % c.lmul = 0 → (b.k.val ≠ 0 → c.vl ≤ (s.hart h).mlen) →
    b.idx.toNat < (if b.col then 128 else 64) →
    let lo := startBy w s h
    ∃ t, exec (.mwr d b) s = .next t ∧ OnlyCoreBy w s t h ∧ MatDoneBy w s t h 0 ∧
      let k := s.core (h / 8)
      let y := t.core (h / 8)
      (∀ u p q, u < 8 → p < 64 → q < 128 → tileEl y u p q =
        let i := if b.col then p else q
        if u = b.t.val ∧ (if b.col then q else p) = b.idx.toNat ∧ lo ≤ i ∧ i < moveLen c b ∧
            (s.hart h).kbit b.k.val i = true then
          (s.hart h).elem (c.grp d) i * (if c.sew = 32 then 1 else 65536) % 2 ^ 32
        else tileEl k u p q) ∧
      { coreBy w y k with tiles := k.tiles } = k

/-- MRD reads a row or column of a tile into a vector group as R283 says; MWR writes one from it: FP32 as it is, BF16 in the
upper half of the word (R282, R283). -/
def Obligations.TileMoves : Prop :=
  (∀ (s : State) (h : Nat) (c : VCtx) (d : VReg) (b : MMove), MatReady s h c → fld c.vtype 63 1 = 0 →
    (c.sew = 16 ∨ c.sew = 32) → d.val % c.lmul = 0 → (b.k.val ≠ 0 → c.vl ≤ (s.hart h).mlen) →
    b.idx.toNat < (if b.col then 128 else 64) →
    LaneResult s h (.mrd d b) { c with vl := moveLen c b } (startAt s h) (mrdLane c (s.core (h / 8)) d b)) ∧
  TileWritesBy false

/-- MGATH in a hart, or in the matrix sequencer where `w` is true. -/
def Sys2Proof.Obl.LatchGatherBy (by_ : Bool) : Prop :=
  ∀ (s : State) (h : Nat) (c : VCtx) (d : BitVec 6) (b : MGath) (addr : W → Nat), MatReadyBy by_ s h c →
    fld c.vtype 63 1 = 0 → c.idxG ≤ 8 → b.b.val % c.idxG = 0 → d.toNat + b.nm1.toNat < 48 →
    let x := s.hart h
    let k := s.core (h / 8)
    let lo := startBy by_ s h
    let fmt := fmtOf c false b.fmt
    let w := if b.l then 128 else 64
    let n := rowBytes fmt w
    let lay := if b.t then layFP32 else layBF16
    let va := fun r => rdS (agentRegs s) b.a.val + wd (x.elem (c.index b.b) r)
    (∀ r, lo ≤ r → r ≤ b.nm1.toNat → (va r).toNat % rowAlign fmt = 0 ∧
      if b.m then EngineRange s (rqBy by_ s h) .read (va r) n addr
      else (va r).toNat + n ≤ spBytes s.sdp ∧
        (∀ q ∈ partsOf (spadAddr (h / 8) (va r).toNat) n, s.poisoned q = false)) →
    let bytes := fun r => leBytes n (if b.m then rangeVal s addr (va r) n else s.natAt (spadAddr (h / 8) (va r).toNat) n)
    ∃ t, exec (.mgath d b) s = .next t ∧ OnlyCoreBy by_ s t h ∧
      MatDoneBy by_ s t h ((upto lo (b.nm1.toNat + 1 - lo)).foldl (fun a r =>
        (rowLoad lay (fld c.mfc 15 3) fmt w (bytes r)).foldl (fun a e => a ||| e.2) a) 0) ∧
      let y := t.core (h / 8)
      (∀ r j, lo ≤ r → r ≤ b.nm1.toNat → j < w → latEl y b.l (d.toNat + r) j =
        ((rowLoad lay (fld c.mfc 15 3) fmt w (bytes r)).getD j (0, 0)).1 * (if b.t then 1 else 65536) % 2 ^ 32) ∧
      (∀ r, lo ≤ r → r ≤ b.nm1.toNat → tget false (if b.l then y.typB else y.typA) (d.toNat + r) = b.t) ∧
      (∀ l p j, p < 48 → j < (if l then 128 else 64) →
        l ≠ b.l ∨ p < d.toNat + lo ∨ d.toNat + b.nm1.toNat < p → latEl y l p j = latEl k l p j ∧
          tget false (if l then y.typB else y.typA) p = tget false (if l then k.typB else k.typA) p) ∧
      { coreBy by_ y k with latA := k.latA, latB := k.latB, typA := k.typA, typB := k.typB } = k

/-- MGATH fills its latch rows from TIDX with the converted bytes at the indexed addresses, of the core's scratchpad or
through the ENGINE port, sets their type, adds the flags of the conversions, and leaves every other row (R110, R279 to
R281). -/
def Obligations.LatchGather : Prop := LatchGatherBy false

/-- MLD in a hart, or in the matrix sequencer where `w` is true. -/
def Sys2Proof.Obl.TileLoadsBy (w : Bool) : Prop :=
  ∀ (s : State) (h : Nat) (i : Instr) (c : VCtx) (d : Tile) (b : MTile) (off : W) (addr : W → Nat), MatReadyBy w s h c →
    mtileOf i = some (false, d, b, off) → b.fr.toNat + b.nm1.toNat < 64 →
    let k := s.core (h / 8)
    let lo := startBy w s h
    let fmt := fmtOf c false b.fmt
    let n := rowBytes fmt 128
    let va := mtileVa (agentRegs s) b off fmt
    (∀ r, lo ≤ r → r ≤ b.nm1.toNat → (va r).toNat % rowAlign fmt = 0 ∧ EngineRange s (rqBy w s h) .read (va r) n addr) →
    let row := fun r => rowLoad layFP32 (fld c.mfc 15 3) fmt 128 (leBytes n (rangeVal s addr (va r) n))
    ∃ t, exec i s = .next t ∧ OnlyCoreBy w s t h ∧
      MatDoneBy w s t h
        ((upto lo (b.nm1.toNat + 1 - lo)).foldl (fun a r => (row r).foldl (fun a e => a ||| e.2) a) 0) ∧
      let y := t.core (h / 8)
      (∀ r j, lo ≤ r → r ≤ b.nm1.toNat → j < 128 → tileEl y d.val (b.fr.toNat + r) j =
        ((row r).getD j (0, 0)).1 % 2 ^ 32) ∧
      (∀ u p q, u < 8 → p < 64 → q < 128 → u ≠ d.val ∨ p < b.fr.toNat + lo ∨ b.fr.toNat + b.nm1.toNat < p →
        tileEl y u p q = tileEl k u p q) ∧
      { coreBy w y k with tiles := k.tiles } = k

/-- MLD loads the rows of a tile from TIDX through the ENGINE port, converted to FP32, and adds the flags of the conversions;
no other row, no byte of memory and no other register changes (R110, R284, R285). -/
def Sys2Proof.Obl.TileLoads : Prop := TileLoadsBy false

/-- Nothing changed but what `OnlyStored` names and, for the matrix sequencer, its own state and its timeline. -/
def Sys2Proof.Obl.OnlyStoredBy (w : Bool) (s t : State) (h : Nat) : Prop :=
  if w then OnlyStored s { t with cores := s.cores, timelines := s.timelines } ∧ (∀ k, k ≠ h / 8 → t.core k = s.core k) ∧
    coreBy true (t.core (h / 8)) (s.core (h / 8)) = s.core (h / 8)
  else OnlyStored s t

/-- MST in a hart, or in the matrix sequencer where `w` is true. -/
def Sys2Proof.Obl.TileStoresBy (w : Bool) : Prop :=
  ∀ (s : State) (h : Nat) (i : Instr) (c : VCtx) (d : Tile) (b : MTile) (off : W) (addr : W → Nat), MatReadyBy w s h c →
    mtileOf i = some (true, d, b, off) → b.fr.toNat + b.nm1.toNat < 64 →
    let k := s.core (h / 8)
    let lo := startBy w s h
    let fmt := fmtOf c true b.fmt
    let n := rowBytes fmt 128
    let va := mtileVa (agentRegs s) b off fmt
    let row := fun r => mstUnits (fld c.mfc 15 3) fmt r (va r) ((upto 0 128).map (fun j => tileEl k d.val (b.fr.toNat + r) j))
    let units := fun r => (row r).1
    (∀ r, lo ≤ r → r ≤ b.nm1.toNat → (va r).toNat % rowAlign fmt = 0 ∧ EngineRange s (rqBy w s h) .write (va r) n addr ∧
      ∀ u ∈ units r, EngineRange s (rqBy w s h) .write u.va u.n addr) →
    ∃ t, exec i s = .next t ∧ OnlyStoredBy w s t h ∧
      MatDoneBy w s t h ((upto lo (b.nm1.toNat + 1 - lo)).foldl (fun a r => a ||| (row r).2) 0) ∧
      (∀ a, t.byteAt a = ((upto lo (b.nm1.toNat + 1 - lo)).flatMap units).foldl (putUnit addr) s.byteAt a) ∧
      ∀ j, j ≠ h → t.hart j = s.hart j

/-- MST stores the rows of a tile from TIDX through the ENGINE port, each element or block converted and the rows in order,
and adds the flags of the conversions; no other byte of memory and no other register changes (R110, R284, R285). -/
def Sys2Proof.Obl.TileStores : Prop := TileStoresBy false

/-- FORK frees, starts or resumes what it names, once each is free or stopped under this hart: a cancel moves TLC0 or TLC1
to the last number accepted, clears its error and gives the hart the flags of a stopped sequencer, a start copies the hart's
registers, a resume clears the error and runs a stopped sequencer on; a copy engine that resumes after a fault reads the
descriptor of a faulted COPY again; a FORK that names the copy engine suspends a running copy node, which returns to READY
with its cursor (R56, R58, R110, R286, R287, R295, R315). -/
def Obligations.ForkStarts : Prop :=
  ∀ (s : State) (h : Nat) (x : ForkArgs), s.agent = .hart h → (s.hart h).vq = [] → NoPosted s h →
    (s.hart h).colPend = 0 → wellFormed (.fork x) = true →
    let k := s.core (h / 8)
    let y := s.hart h
    let start := fun pc => { Seq.reset with phase := .running, owner := h, level := y.level, pc := pc, s := y.s,
                                            vtype := y.vtype, vl := y.vl, mfc := y.mfc, fxrm := y.fxrm }
    let again := fun (q : Seq) => if q.phase = .stopped then { q with phase := .running, fword := 0, fva := 0, fpc := 0 } else q
    let freed := fun (q : Seq) => if q.phase = .stopped then Seq.reset else q
    let tl0 := tlKey y.cid (h / 8) 0
    let tl1 := tlKey y.cid (h / 8) 1
    let useM := x.xm = true ∨ x.rm = true ∨ x.a.val ≠ 0
    let useC := x.xc = true ∨ x.rc = true ∨ x.b.val ≠ 0
    k.resident = some y.cid →
    (x.a.val ≠ 0 → goodTarget (y.rd x.a) = true) → (x.b.val ≠ 0 → goodTarget (y.rd x.b) = true) →
    (useM → k.mseq.phase = .free ∨ (k.mseq.phase = .stopped ∧ k.mseq.owner = h ∧ (x.xm = true ∨ x.rm = true))) →
    (useC → k.cseq.phase = .free ∨ (k.cseq.phase = .stopped ∧ k.cseq.owner = h ∧ (x.xc = true ∨ x.rc = true))) →
    let mf := x.xm = true ∧ k.mseq.phase = .stopped
    let cf := x.xc = true ∧ k.cseq.phase = .stopped
    ∃ t, exec (.fork x) s = .next t ∧ Past y { t.hart h with fflags := y.fflags, satf := y.satf } ∧
      (t.hart h).fflags = y.fflags ||| (if mf then k.mseq.fflags else 0) ||| (if cf then k.cseq.fflags else 0) ∧
      (t.hart h).satf = y.satf ||| (if mf then k.mseq.satf else 0) ||| (if cf then k.cseq.satf else 0) ∧
      SameRegs y (t.hart h) ∧ (∀ j, j ≠ h → t.hart j = s.hart j) ∧
      (∀ c, c ≠ h / 8 → t.core c = s.core c) ∧ t.mem = s.mem ∧
      let z := t.core (h / 8)
      z.mseq = (if x.rm then again k.mseq else if x.a.val ≠ 0 then start (y.rd x.a) else if x.xm then freed k.mseq
        else k.mseq) ∧
      z.cseq = (if x.rc then again k.cseq else if x.b.val ≠ 0 then start (y.rd x.b) else if x.xc then freed k.cseq
        else k.cseq) ∧
      (x.xm = true → (t.tl tl1).cnt = (s.tl tl1).acc ∧ (t.tl tl1).err = none) ∧
      (x.rm = true → (t.tl tl1).cnt = (s.tl tl1).cnt ∧ (t.tl tl1).err = none) ∧
      (x.xm = false → x.rm = false → t.tl tl1 = s.tl tl1) ∧
      (x.xc = true → (t.tl tl0).cnt = (s.tl tl0).acc ∧ (t.tl tl0).err = none ∧ z.copies = [] ∧ z.cfault = none) ∧
      (x.rc = true → (t.tl tl0).cnt = (s.tl tl0).cnt ∧ (t.tl tl0).err = none ∧ z.cfault = none ∧
        ∀ n, z.copies.getD n CopyOf.none =
          let e := k.copies.getD n CopyOf.none
          { e with fault := none
                   body := if e.x = false ∧ e.fault.isSome = true then s.natAt (spadAddr (h / 8) e.desc) 64 else e.body }) ∧
      (x.xc = false → x.rc = false → t.tl tl0 = s.tl tl0 ∧ z.copies = k.copies) ∧
      { z with mseq := k.mseq, cseq := k.cseq, copies := k.copies, nodeCopy := k.nodeCopy } = k ∧
      let leaves := fun n => useC ∧ ∃ c, k.nodeCopy = some c ∧ c.node = some n
      (useC → z.nodeCopy = none) ∧ (¬useC → z.nodeCopy = k.nodeCopy) ∧
      (∀ c n v, useC → k.nodeCopy = some c → c.node = some n → s.node? n = some v →
        t.node? n = some { v with st := .ready, cursor := some c, readyAt := s.clock, waited := 0 }) ∧
      ∀ n, ¬leaves n → t.node? n = s.node? n

/-- RDV of a hart frees the sequencers that it owns, where all of them rest, and adds their flags to FFLAGS and SATF; while one
of them runs, the hart waits; where one has stopped, the hart gets the flags of both, which the sequencers lose, and takes the
engine fault with TVAL the fault word, the matrix sequencer's where both have stopped. A sequencer that another hart owns stays
as it is (R110, R289). The bits 63:57 of the handler's address are the model's choice of log 63. -/
def Sys2Proof.Obl.RendezvousOfHarts : Prop :=
  ∀ (s : State) (h : Nat), s.agent = .hart h →
    let k := s.core (h / 8)
    let x := s.hart h
    ((∀ m : Bool, (k.seq m).owner = h → (k.seq m).phase = .free ∨ (k.seq m).phase = .rest) →
      ∃ t, exec .rdv s = .next t ∧ OwnsNone t h ∧ OnlyCore s t h ∧ SameRegs x (t.hart h) ∧
        Past x { t.hart h with fflags := x.fflags, satf := x.satf } ∧
        (t.hart h).fflags = ownedFlags s h (·.fflags) x.fflags ∧ (t.hart h).satf = ownedFlags s h (·.satf) x.satf ∧
        (∀ m : Bool, ((t.core (h / 8)).seq m) = if (k.seq m).owner = h then Seq.reset else k.seq m) ∧
        { t.core (h / 8) with mseq := k.mseq, cseq := k.cseq } = k) ∧
    (∀ m : Bool, (k.seq m).owner = h → (k.seq m).phase = .running → exec .rdv s = .next s) ∧
    ∀ m : Bool, x.vq = [] → CanTrap s h 0x15 → (k.seq m).owner = h → (k.seq m).phase = .stopped →
      (∀ n : Bool, (k.seq n).owner = h → (k.seq n).phase ≠ .running) →
      (k.mseq.owner = h → k.mseq.phase = .stopped → m = true) →
      ∃ u t, exec .rdv s = .next t ∧ OnlyCore s u h ∧ { u.hart h with fflags := x.fflags, satf := x.satf } = x ∧
        (u.hart h).fflags = ownedFlags s h (·.fflags) x.fflags ∧ (u.hart h).satf = ownedFlags s h (·.satf) x.satf ∧
        { u.core (h / 8) with mseq := k.mseq, cseq := k.cseq } = k ∧
        (∀ n : Bool, (u.core (h / 8)).seq n =
          if (k.seq n).owner = h then { k.seq n with fflags := 0, satf := 0 } else k.seq n) ∧
        Trapped u t h 0x15 (k.seq m).fword x.pc

/-- RDV of a sequencer: the matrix sequencer rests; the copy sequencer rests once every copy that it accepted has completed,
waits while one has not, and stops with the engine's fault word where its engine is faulted (R289). -/
def Sys2Proof.Obl.RendezvousOfSequencers : Prop :=
  ∀ (s : State) (c : Nat),
    let k := s.core c
    (s.agent = .mseq c → exec .rdv s = .next (s.setCore c { k with mseq := { k.mseq with phase := .rest } })) ∧
    (s.agent = .cseq c →
      (∀ e, k.cfault = some e → exec .rdv s = .next (s.setCore c { k with cseq :=
        { k.cseq with phase := .stopped, fword := e.fword, fva := e.va, fpc := e.pc } })) ∧
      (k.cfault = none → CopiesOver s c →
        exec .rdv s = .next (s.setCore c { k with cseq := { k.cseq with phase := .rest } })) ∧
      (k.cfault = none → ¬CopiesOver s c → exec .rdv s = .next s))

/-- A sequencer stops at an instruction outside its class, which has no effect, with cause class; an instruction that would
trap in a hart stops it with the cause of the trap, what it did below the element or row kept: here a VTYPE of MOPA or MOPS
that is not legal, a row of MLD that is not aligned, and a barrier offset that R304 does not accept. COPY and COPYX stop the
copy sequencer with the fault word of its engine where that is faulted. The address of a class or VILL stop is free (log 18)
(R97, R290, R292, R304). -/
def Sys2Proof.Obl.EngineStops : Prop :=
  (∀ (s : State) (m : Bool) (c : Nat) (i : Instr), s.agent = seqAgent m c → (encode i).isSome = true →
    inSeqClass m i = false → ∃ t, exec i s = .next t ∧ SeqStopped s t m c 0x03 0 none) ∧
  (∀ (s : State) (h : Nat) (i : Instr) (c : VCtx) (d : Tile) (a b : VReg), MatReadyBy true s h c →
    i = .mopa d a b ∨ i = .mops d a b → a.val % c.lmul = 0 → b.val % c.lmul = 0 →
    fld c.vtype 63 1 = 1 ∨ (c.sew ≠ 16 ∧ c.sew ≠ 32) →
    ∃ u t, exec i s = .next t ∧ Numbered s u (h / 8) ∧ SeqStopped u t true (h / 8) 0x02 0 none) ∧
  (∀ (s : State) (h r : Nat) (i : Instr) (c : VCtx) (d : Tile) (b : MTile) (off : W) (addr : W → Nat),
    MatReadyBy true s h c → mtileOf i = some (false, d, b, off) → b.fr.toNat + b.nm1.toNat < 64 →
    let k := s.core (h / 8)
    let lo := startBy true s h
    let fmt := fmtOf c false b.fmt
    let n := rowBytes fmt 128
    let va := mtileVa k.mseq.s b off fmt
    let row := fun r => rowLoad layFP32 (fld c.mfc 15 3) fmt 128 (leBytes n (rangeVal s addr (va r) n))
    let f := (upto lo (r - lo)).foldl (fun a r => (row r).foldl (fun a e => a ||| e.2) a) 0
    lo ≤ r → r ≤ b.nm1.toNat → (va r).toNat % rowAlign fmt ≠ 0 →
    (∀ q, lo ≤ q → q ≤ r → EngineRange s (rqBy true s h) .read (va q) n addr) →
    (∀ q, lo ≤ q → q < r → (va q).toNat % rowAlign fmt = 0) →
    ∃ u t, exec i s = .next t ∧ SeqStopped u t true (h / 8) 0x06 r (some (va r)) ∧
      Numbered s { u with cores := s.cores } (h / 8) ∧ (∀ g, g ≠ h / 8 → u.core g = s.core g) ∧
      let y := u.core (h / 8)
      { y with tiles := k.tiles, mseq := k.mseq } = k ∧
      y.mseq = { k.mseq with fflags := k.mseq.fflags ||| wd (f % 32), satf := k.mseq.satf ||| wd (f / 32 % 2) } ∧
      ∀ v p q, v < 8 → p < 64 → q < 128 → tileEl y v p q =
        if v = d.val ∧ b.fr.toNat + lo ≤ p ∧ p < b.fr.toNat + r then ((row (p - b.fr.toNat)).getD q (0, 0)).1 % 2 ^ 32
        else tileEl k v p q) ∧
  (∀ (s : State) (m : Bool) (c : Nat) (a b : SReg) (i : Instr), s.agent = seqAgent m c →
    i = .tbinit a b ∨ i = .tbarrive a ∨ (∃ v, i = .tbexpect a b v) ∨ i = .tbwait a b →
    (m = false → (s.core c).cfault = none) →
    let off := rdS ((s.core c).seq m).s a.val
    (off.toNat % 16 ≠ 0 → ∃ t, exec i s = .next t ∧ SeqStopped s t m c 0x06 0 (some off)) ∧
    (off.toNat % 16 = 0 → spBytes s.sdp < off.toNat + 16 →
      ∃ t, exec i s = .next t ∧ SeqStopped s t m c 0x04 0 (some off))) ∧
  ∀ (s : State) (c : Nat) (i : Instr) (e : EngFault), s.agent = .cseq c →
    (∃ a b, i = .copy a b) ∨ (∃ x, i = .copyx x) → (s.core c).cfault = some e →
    exec i s = .next (s.setCore c { s.core c with cseq :=
      { (s.core c).cseq with phase := .stopped, fword := e.fword, fva := e.va, fpc := e.pc } })

/-- The sequencers execute their instructions as harts do, on their own registers and flags and their owner's vector, mask and
tile registers (R97, R110, R288): the matrix instructions, each under the next number of TLC1 (R260); NOP, B, FENCE, TLREAD and
TLWAIT in both, where only the last two write the sequencer's copy of the registers; COPY and COPYX in the copy sequencer,
which join the engine's queue under the next number of TLC0 (R292 to R295, R300). -/
def Sys2Proof.Obl.SequencersExecute : Prop :=
  TileProductsBy true ∧ TileWritesBy true ∧ LatchGatherBy true ∧ TileLoadsBy true ∧ TileStoresBy true ∧
  (∀ (s : State) (h : Nat) (c : VCtx) (d : VReg) (b : MMove), MatReadyBy true s h c → fld c.vtype 63 1 = 0 →
    (c.sew = 16 ∨ c.sew = 32) → d.val % c.lmul = 0 → (b.k.val ≠ 0 → c.vl ≤ (s.hart h).mlen) →
    b.idx.toNat < (if b.col then 128 else 64) →
    let lo := startBy true s h
    let n := moveLen c b
    let l := mrdLane c (s.core (h / 8)) d b
    let x := s.hart h
    ∃ t, exec (.mrd d b) s = .next t ∧ OnlyCoreBy true s t h ∧
      SeqDone s t h ((upto lo (n - lo)).foldl (fun a j => if l.on x j then a ||| (l.f j).2 else a) 0) ∧
      coreBy true (t.core (h / 8)) (s.core (h / 8)) = s.core (h / 8) ∧
      let y := t.hart h
      (∀ j, lo ≤ j → j < n → hasElem x l.dst j → y.elem l.dst j =
        if x.kbit l.k.val j then (l.f j).1 % 2 ^ l.dst.eew else if l.z then 0 else x.elem l.dst j) ∧
      (∀ j, j < lo ∨ n ≤ j → y.elem l.dst j = x.elem l.dst j) ∧
      (∀ r p, r < l.dst.base ∨ l.dst.base + l.dst.g ≤ r → y.vbyte r p = x.vbyte r p) ∧
      { y with v := x.v, retiredAt := x.retiredAt } = x) ∧
  (∀ (s : State) (m : Bool) (c : Nat), s.agent = seqAgent m c →
    let q := (s.core c).seq m
    let past := { q with pc := nextPC q.pc q.nh, tidx := 0 }
    let tl := fun (n : BitVec 2) => s.tl (tlKey (s.hart q.owner).cid c n.toNat)
    let writes := fun (i : Instr) (d : SReg) (v : W) => ∃ t z, exec i s = .next t ∧ SeqBecomes s t m c z ∧
      { t with cores := s.cores } = s ∧ { z with s := q.s } = past ∧
      ∀ r : SReg, rdS z.s r.val = if r = d then (if d.val = 0 then 0 else v) else rdS q.s r.val
    (∃ t, exec .nop s = .next t ∧ SeqBecomes s t m c past ∧ { t with cores := s.cores } = s) ∧
    (∀ z, ∃ t, exec (.b z) s = .next t ∧ SeqBecomes s t m c { q with pc := branchTarget q.pc z } ∧
      { t with cores := s.cores } = s) ∧
    ((m = false → CopiesOver s c) → (∀ p ∈ s.winParts, p.who ≠ (if m then 512 else 576) + c) →
      ∀ x, ∃ t, exec (.fence x) s = .next t ∧ SeqBecomes s t m c past ∧ { t with cores := s.cores, stale := s.stale } = s) ∧
    ∀ (d b : SReg) (n : BitVec 2),
      ((rdS q.s b.val).toNat ≤ (tl n).cnt ∨ (tl n).err.isSome = true → writes (.tlwait d n b) d (wd (tl n).cnt)) ∧
      writes (.tlread d 0 n) d (wd (tl n).cnt) ∧
      writes (.tlread d 1 n) d (((tl n).err.map (·.fword)).getD 0) ∧
      writes (.tlread d 2 n) d (((tl n).err.map (·.va)).getD 0) ∧
      writes (.tlread d 3 n) d (((tl n).err.map (·.pc)).getD 0)) ∧
  ∀ (s : State) (n : Nat) (bar a : SReg), s.agent = .cseq n →
    let k := s.core n
    let q := k.cseq
    let c := vctxOf s
    let tk := seqTl s false n
    let num := (s.tl tk).acc + 1
    let off := (rdS q.s a.val).toNat
    let body := s.natAt (spadAddr n off) 64
    let bo := (rdS q.s bar.val).toNat
    let own := fun (z : CopyCtx) => z.opno = num ∧ z.cid = (s.hart q.owner).cid ∧ z.core = n ∧ z.hart = q.owner ∧
      z.seq = true ∧ z.node = none ∧ z.pc = q.pc ∧ z.sew = c.sew ∧ z.vl = c.vl ∧ z.gran = 0 ∧ z.fault = none ∧
      z.bar = if bar.val = 0 then none else some bo
    let joins := fun (i : Instr) (p : CopyCtx → Prop) => ∃ t z, exec i s = .next t ∧ own z ∧ p z ∧
      t.core n = { k with copies := k.copies ++ [z], cseq := { q with pc := nextPC q.pc q.nh, tidx := 0 } } ∧
      (∀ g, g ≠ n → t.core g = s.core g) ∧ t.tl tk = { s.tl tk with acc := num } ∧ (∀ j, j ≠ tk → t.tl j = s.tl j) ∧
      { t with cores := s.cores, timelines := s.timelines } = s
    k.cfault = none → k.copies.length < 4 → sptHeld s .engine .read = false → (∀ p ∈ s.winParts, p.who ≠ 576 + n) →
    fld q.vtype 63 1 = 0 → (bar.val ≠ 0 → barOk s bo) → c.vl ≠ 0 →
    (off % 64 = 0 → off + 64 ≤ spBytes s.sdp → body / 2 ^ 448 % 2 ^ 64 = 0 → body / 2 ^ 128 % 2 ^ 32 = 0 →
      (∀ j, 1 ≤ j → j ≤ 3 → body / 2 ^ (320 + 32 * j) % 2 ^ 32 ≠ 0) →
      joins (.copy bar a) (fun z => z.x = false ∧ z.desc = off ∧ z.body = body)) ∧
    ∀ x : CopyXArgs, x.b = bar → c.sew ≤ 16 → x.wm1.toNat + 1 ≤ c.sew →
      joins (.copyx x) (fun z => z.x = true ∧ z.haddr = rdS q.s x.a.val ∧ z.paddr = rdS q.s x.c.val ∧
        z.wm1 = x.wm1.toNat ∧ z.dir = x.dir ∧ z.sx = x.s)

/-- The rendezvous, the engine stop, and what the sequencers execute. -/
def Obligations.Rendezvous : Prop := RendezvousOfHarts ∧ RendezvousOfSequencers ∧ EngineStops ∧ SequencersExecute

/-- NEND ends a hart that has nothing outstanding: it is no longer live and, while its context is installed, no byte of memory
changes (R311); where no band waits for the slices of its band, every other hart stays as live as it was. That the registers of
an ended hart are zero is the model's choice of log 5. -/
def Obligations.NodeEnds : Prop :=
  ∀ (s : State) (h : Nat), s.agent = .hart h → (s.hart h).inHandler = false → OwnsNone s h → (s.hart h).vq = [] →
    NoPosted s h → (s.hart h).colPend = 0 → (∀ e ∈ s.refusals, e.2.hart ≠ h) → (s.hart h).pend = [] →
    (∀ b, s.band? (s.hart h).band = some b → b.incoming = none) →
    ∃ t, exec .nend s = .next t ∧ (t.hart h).live = false ∧ (∀ n, (t.hart h).rd n = 0) ∧ (t.hart h).cur = 0 ∧
      (∀ k, k ≠ h → (t.hart k).live = (s.hart k).live) ∧ ((s.ctx (s.hart h).cid).installed = true → t.mem = s.mem)

/-- COPY and COPYX of a hart take the next number of TLC0 and join the engine's queue with what they capture; one with
nothing to move completes at once; no byte of memory moves yet (R260, R292 to R295, R300, R301). -/
def Obligations.CopiesAccepted : Prop :=
  ∀ (s : State) (h : Nat) (c : VCtx) (bar : SReg), CopyReady s h c bar →
    let y := s.hart h
    let n := (s.tl (tlKey y.cid (h / 8) 0)).acc + 1
    (∀ a, (y.rd a).toNat % 64 = 0 → (y.rd a).toNat + 64 ≤ spBytes s.sdp →
      let d := s.natAt (spadAddr (h / 8) (y.rd a).toNat) 64
      d / 2 ^ 448 % 2 ^ 64 = 0 → d / 2 ^ 128 % 2 ^ 32 = 0 →
      ∃ t, exec (.copy bar a) s = .next t ∧ CopyAccepted s t h n
        (c.vl * c.sew / 8 = 0 ∨ ∃ k, 1 ≤ k ∧ k ≤ 3 ∧ d / 2 ^ (320 + 32 * k) % 2 ^ 32 = 0)
        (fun z => CopyOf s h c bar z ∧ z.x = false ∧ z.desc = (y.rd a).toNat ∧ z.body = d)) ∧
    (∀ x : CopyXArgs, x.b = bar → c.sew ≤ 16 → x.wm1.toNat + 1 ≤ c.sew →
      ∃ t, exec (.copyx x) s = .next t ∧ CopyAccepted s t h n (c.vl = 0)
        (fun z => CopyOf s h c bar z ∧ z.x = true ∧ z.haddr = y.rd x.a ∧ z.paddr = y.rd x.c ∧ z.wm1 = x.wm1.toNat ∧
          z.dir = x.dir ∧ z.sx = x.s))

/-- The transaction barriers of a hart: TBINIT, TBARRIVE and TBEXPECT update the object as R261 and R305 say, with the
completion check after the update; TBWAIT completes once the phase differs from S(B) (R304 to R306). -/
def Sys2Proof.Obl.TransactionBarriers : Prop :=
  ∀ (s : State) (h : Nat) (a b : SReg), s.agent = .hart h → (s.hart h).vq = [] → NoPosted s h → (s.hart h).colPend = 0 →
    let y := s.hart h
    let off := (y.rd a).toNat
    let o := barAt s (h / 8) off
    let n := (y.rd b).toNat
    barOk s off →
    (1 ≤ n → n ≤ 65535 → ∃ t, exec (.tbinit a b) s = .next t ∧ BarUpdated s t h off ∧
      BarIs (barAt t (h / 8) off) 0 0 0 n n 0) ∧
    (∀ ph ov er pa ia ps, BarIs o ph ov er pa ia ps →
      (1 ≤ pa → ∃ t, exec (.tbarrive a) s = .next t ∧ BarUpdated s t h off ∧
        BarChecked (barAt t (h / 8) off) ph ov er (pa - 1) ia ps) ∧
      (∀ arv : Bool, ps + (n : Int) < 2 ^ 31 → (arv = true → 1 ≤ pa) →
        ∃ t, exec (.tbexpect a b arv) s = .next t ∧ BarUpdated s t h off ∧
          BarChecked (barAt t (h / 8) off) ph ov er (if arv then pa - 1 else pa) ia (ps + n)) ∧
      (ph ≠ n % 16 → ScalarNothing s h (.tbwait a b)))

/-- The transaction barriers of a sequencer: as a hart's, with the sequencer's own registers; an arrival of the copy sequencer
is performed once every copy that the sequencer accepted has completed, and an overflow stops the sequencer with cause 0x09,
with OVF alone set (R288, R304 to R306, R314). -/
def Sys2Proof.Obl.SequencerBarriers : Prop :=
  ∀ (s : State) (m : Bool) (c : Nat) (a b : SReg), s.agent = seqAgent m c → (m = false → CopiesOver s c) →
    let q := (s.core c).seq m
    let off := (rdS q.s a.val).toNat
    let o := barAt s c off
    let n := (rdS q.s b.val).toNat
    let past := { q with pc := nextPC q.pc q.nh, tidx := 0 }
    let updated := fun (i : Instr) (p : Nat → Prop) => ∃ t, exec i s = .next t ∧ BarWritten s t c off ∧ p (barAt t c off) ∧
      SeqBecomes s t m c past ∧ { t with cores := s.cores, mem := s.mem, poison := s.poison, lost := s.lost } = s
    let overflows := fun (i : Instr) => ∃ u t, exec i s = .next t ∧ BarWritten s u c off ∧
      barAt u c off = o - o / 16 % 2 * 16 + 16 ∧ { u with mem := s.mem, poison := s.poison, lost := s.lost } = s ∧
      SeqStopped u t m c 0x09 0 (some (wd off))
    barOk s off →
    (if n = 0 ∨ 65535 < n then overflows (.tbinit a b) else updated (.tbinit a b) (BarIs · 0 0 0 n n 0)) ∧
    (∀ ph ov er pa ia ps, BarIs o ph ov er pa ia ps →
      (if pa = 0 then overflows (.tbarrive a) else updated (.tbarrive a) (BarChecked · ph ov er (pa - 1) ia ps)) ∧
      (∀ arv : Bool, if 2 ^ 31 ≤ ps + (n : Int) ∨ (arv = true ∧ pa = 0) then overflows (.tbexpect a b arv)
        else updated (.tbexpect a b arv) (BarChecked · ph ov er (if arv then pa - 1 else pa) ia (ps + n))) ∧
      (ph ≠ n % 16 → ∃ t, exec (.tbwait a b) s = .next t ∧ SeqBecomes s t m c past ∧ { t with cores := s.cores } = s) ∧
      (ph = n % 16 → exec (.tbwait a b) s = .next s))

/-- A barrier operation that would overflow sets OVF alone and takes the barrier-overflow trap with TVAL the offset (R261,
R305). -/
def Sys2Proof.Obl.BarrierOverflowTraps : Prop :=
  ∀ (s : State) (h : Nat) (a b : SReg) (arv : Bool), s.agent = .hart h → (s.hart h).vq = [] → NoPosted s h →
    (s.hart h).colPend = 0 → CanTrap s h 0x09 →
    let y := s.hart h
    let off := (y.rd a).toNat
    let o := barAt s (h / 8) off
    let n := (y.rd b).toNat
    let overV := fun i => ∃ t, exec i s = .next t ∧ (t.hart h).pc = handlerOf s h 0x09 ∧ (t.hart h).tcause = 0x09 ∧
      (t.hart h).tval = y.rd a ∧ (t.hart h).tepc = wd (fld y.pc 0 57) ∧ SameRegs y (t.hart h) ∧ (∀ k, k ≠ h → t.hart k = s.hart k) ∧
      barAt t (h / 8) off = o - o / 16 % 2 * 16 + 16 ∧ ∀ q, (q < spadAddr (h / 8) off ∨ spadAddr (h / 8) off + 16 ≤ q) →
        t.byteAt q = s.byteAt q
    barOk s off →
    (n = 0 ∨ 65535 < n → overV (.tbinit a b)) ∧ (o / 2 ^ 8 % 65536 = 0 → overV (.tbarrive a)) ∧
      (2 ^ 31 ≤ sInt 32 (o / 2 ^ 40) + (n : Int) ∨ (arv = true ∧ o / 2 ^ 8 % 65536 = 0) → overV (.tbexpect a b arv))

/-- CBAR and BBAR complete once every other live hart of the crew, or of the band, has arrived as often as this one, and
count one passage (R309). -/
def Sys2Proof.Obl.HartBarriers : Prop :=
  ∀ (s : State) (h n : Nat), s.agent = .hart h → (s.hart h).vq = [] → NoPosted s h → (s.hart h).colPend = 0 →
    let x := s.hart h
    (n = (if x.ncbar = x.cpass then x.ncbar + 1 else x.ncbar) →
      (∀ k ∈ crewOf_ s h, k ≠ h → (s.hart k).live = true → (s.hart k).band = x.band → n ≤ (s.hart k).ncbar) →
      ∃ t, exec .cbar s = .next t ∧ OnlyHart s t h ∧ SameRegs x (t.hart h) ∧ (t.hart h).pc = nextPC x.pc x.nh ∧
        (t.hart h).ncbar = n ∧ (t.hart h).cpass = n ∧
        { t.hart h with pc := x.pc, ncbar := x.ncbar, cpass := x.cpass, wait := x.wait, retiredAt := x.retiredAt } = x) ∧
    (n = (if x.nbbar = x.bpass then x.nbbar + 1 else x.nbbar) →
      (∀ k ∈ bandOf_ s h, k ≠ h → (s.hart k).live = true → (s.hart k).band = x.band → n ≤ (s.hart k).nbbar) →
      ∃ t, exec .bbar s = .next t ∧ OnlyHart s t h ∧ SameRegs x (t.hart h) ∧ (t.hart h).pc = nextPC x.pc x.nh ∧
        (t.hart h).nbbar = n ∧ (t.hart h).bpass = n ∧
        { t.hart h with pc := x.pc, nbbar := x.nbbar, bpass := x.bpass, wait := x.wait, retiredAt := x.retiredAt } = x)

/-- TLWAIT completes with the counter once it has reached S(B) or the timeline is in its error state; TLREAD reads the
counter or the fields of the error, zero where there is none (R260, R307, R308). -/
def Obligations.TimelineReads : Prop :=
  ∀ (s : State) (h : Nat) (d b : SReg) (n : BitVec 2), s.agent = .hart h →
    let x := s.tl (tlKey (s.hart h).cid (h / 8) n.toNat)
    (((s.hart h).rd b).toNat ≤ x.cnt ∨ x.err.isSome = true → ScalarResult s h (.tlwait d n b) d (wd x.cnt)) ∧
    ScalarResult s h (.tlread d 0 n) d (wd x.cnt) ∧
    ScalarResult s h (.tlread d 1 n) d ((x.err.map (·.fword)).getD 0) ∧
    ScalarResult s h (.tlread d 2 n) d ((x.err.map (·.va)).getD 0) ∧
    ScalarResult s h (.tlread d 3 n) d ((x.err.map (·.pc)).getD 0)

/-- GLAUNCH into a queue of the hart's context reads the record at S(A) through the ENGINE port and either refuses it with
the first reason of R310 that holds, changing nothing else, or accepts it under the queue's next sequence number with a node
for each entry (R48 to R50, R310, R412, R414). R310 gives the reasons in no order: the order in which they are tested is the
model's choice of log 53. -/
def Obligations.GraphLaunch : Prop :=
  ∀ (s : State) (h : Nat) (d a : SReg) (q : BitVec 4) (addr : W → Nat), s.agent = .hart h → (s.hart h).vq = [] →
    NoPosted s h → (s.hart h).colPend = 0 →
    let st := h / 8 / 4
    let k := (s.stack st).queue q.toNat
    let va := (s.hart h).rd a
    let hd := rangeVal s addr va 64
    let rec_ := rangeVal s addr va (recBytes hd)
    let why := if k.st = .drain ∨ k.st = .disabled then 1 else if headerOk hd = false ∨ recordOk rec_ = false then 2
      else if 256 ≤ liveGraphs s st q.toNat then 3 else 0
    k.cid = (s.hart h).cid → EngineRange s (rqOf s h) .read va 64 addr →
    (headerOk hd = true → EngineRange s (rqOf s h) .read va (recBytes hd) addr) →
    (why ≠ 0 → ScalarResult s h (.glaunch d q a) d (wd (2 ^ 63 + st * 2 ^ 40 + q.toNat * 2 ^ 36 + why))) ∧
    (why = 0 → placeWaits s k.cid st rec_ = false →
      let seq := (k.gseq + 1) % 65536
      ∃ t, exec (.glaunch d q a) s = .next t ∧
        Wrote (s.hart h) (t.hart h) d (wd (st * 2 ^ 40 + q.toNat * 2 ^ 36 + seq * 2 ^ 16)) ∧
        Past (s.hart h) (t.hart h) ∧ (∀ j, j ≠ h → t.hart j = s.hart j) ∧ t.mem = s.mem ∧ t.cores = s.cores ∧
        ((t.stack st).queue q.toNat).gseq = seq ∧ ((t.stack st).queue q.toNat).st = .active ∧
        ∃ g, t.graph? s.fresh = some g ∧ g.queue = q.toNat ∧ g.stack = st ∧ g.seq = seq ∧ g.cid = (s.hart h).cid ∧
          g.complete = false ∧ g.nodes.length = rec_ / 2 ^ 24 % 256)

namespace Sys2Proof.Obl
open Sys2Proof.Machine

/-- A cell of lattice type `t` at `va` is the local replica's at the canonical address `a`, aligned, and its bytes can be
read plainly (R350 to R353). -/
def LatAt (s : State) (r : Rq) (k : AKind) (va : W) (t a : Nat) : Prop :=
  ∃ acc e, (∀ n, n = 1 ∨ n = cellBytes t → resolve s r .scalar k va n = (.ok (acc, placeOf s.sdp acc.pa), e)) ∧
    acc.lt = t ∧ t ≠ 0 ∧ acc.ub = false ∧ acc.from_ = r.stack ∧ a = homeAddr acc (placeOf s.sdp acc.pa) ∧
    ltypeAt s r.cid va = t ∧ va.toNat % cellBytes t = 0 ∧ CleanDram s r.cid acc.key a (cellBytes t) 0 ∧
    (∃ lin w, placeOf s.sdp acc.pa = .dram lin w) ∧ FreeAccess s r .scalar k va (cellBytes t) acc (placeOf s.sdp acc.pa)

/-- A hart past a timed wait: LTMO.TO says whether the time-out ended it (R358). -/
def PastTimed (x y : Hart) (late : Bool) : Prop :=
  y.pc = nextPC x.pc x.nh ∧ fld y.ltmo 63 1 = b01 late ∧ fld y.ltmo 0 63 = fld x.ltmo 0 63 ∧
    { y with pc := x.pc, s := x.s, wait := x.wait, retiredAt := x.retiredAt, ltmo := x.ltmo } = x

/-- The time-out of the instruction that the hart waits at has expired (R59). -/
def TimedOut (x : Hart) (i : Instr) : Prop := ∃ w, x.wait = some w ∧ w.what = i ∧ w.expired = true

/-- A vector-queue instruction that reads no vector configuration can run now (R195, R390). -/
def QueueReady (s : State) (h : Nat) : Prop := (s.agent = .hart h ∨ s.agent = .queue h) ∧ imageBars s = false

/-- The bytes of a COLST: each range of it lies in the Col broadcast region of stack `t`, from offset `off` (R378). -/
def ColRange (s : State) (r : Rq) (va : W) (n t off : Nat) : Prop :=
  ∀ e ∈ piecesOf va n, ∃ pa acc, vpTranslate s r .write e.1 = .ok pa ∧
    checkPlace s r .vector .read e.1 e.2 pa = .ok (acc, .col t (off + (e.1 - va).toNat))

/-- The layers of a mask that are CURRENT, as a mask (R379). -/
def liveLayers (t : Stack) (m : Nat) : Nat :=
  (upto 0 16).foldl (fun n l => if m.testBit l && decide ((t.layer l).st = .current) then n + 2 ^ l else n) 0

/-- Every layer of every stack is as it was, but that a sleeping layer of a mask on stack `k` has begun to catch up, not yet
powered (R376). -/
def Woken (s t : State) (k m : Nat) : Prop :=
  { t with harts := s.harts, stks := s.stks } = s ∧ (∀ j, { t.stack j with layers := (s.stack j).layers } = s.stack j) ∧
    ∀ j l, (t.stack j).layer l =
      let x := (s.stack j).layer l
      if j = k ∧ l < 16 ∧ m.testBit l = true ∧ x.st = .asleep then { x with st := .catchup, powered := false } else x

/-- A Veld instruction of a hart can run now (R334). -/
def VeldReady (s : State) (h : Nat) : Prop := s.agent = .hart h ∧ (s.hart h).vq = [] ∧ NoPosted s h

/-- The descriptor at a scratchpad offset (R332, R334). -/
def descOf (s : State) (h : Nat) (off : W) : Nat := s.natAt (spadAddr (h / 8) off.toNat) 64
/-- An offset that step 1 of R334 accepts. -/
def descPlace (s : State) (off : W) : Prop := off.toNat % 64 = 0 ∧ off.toNat + 64 ≤ spBytes s.sdp

/-- The launch queue of the hart's core takes an operation (R335). -/
def QueueFree (s : State) (h : Nat) : Prop :=
  let q := (s.stack (h / 8 / 4)).veld.queue (h / 8 % 4)
  q.ops.length < 8 ∧ q.err = none ∧ (s.hart h).colPend = 0 ∧ sptWaits s h = false

/-- The instruction is accepted: D takes the next number of TLC2 and the core's launch queue the operation (R260, R334). -/
def Launched (s : State) (h : Nat) (i : Instr) (d : SReg) (op : VOp) : Prop :=
  let st := h / 8 / 4
  let k := tlKey (s.hart h).cid (h / 8) 2
  let n := (s.tl k).acc + 1
  let q := (s.stack st).veld.queue (h / 8 % 4)
  ∃ t, exec i s = .next t ∧ Past (s.hart h) (t.hart h) ∧ Wrote (s.hart h) (t.hart h) d (wd n) ∧
    (∀ j, j ≠ h → t.hart j = s.hart j) ∧ { t with harts := s.harts, stks := s.stks, timelines := s.timelines } = s ∧
    t.tl k = { s.tl k with acc := n } ∧ (∀ j, j ≠ k → t.tl j = s.tl j) ∧
    (t.stack st).veld.queue (h / 8 % 4) = { q with ops := q.ops ++ [{ op with num := n }] } ∧
    (∀ p, p ≠ h / 8 % 4 → (t.stack st).veld.queue p = (s.stack st).veld.queue p) ∧
    { (t.stack st).veld with qs := (s.stack st).veld.qs } = (s.stack st).veld ∧
    { t.stack st with veld := (s.stack st).veld } = s.stack st ∧ ∀ j, j ≠ st → t.stack j = s.stack j

/-- What an operation of a hart carries beside its kind (R332, R343). -/
def OpOf (s : State) (h : Nat) (kind : VKind) (op : VOp) : Prop :=
  op.kind = kind ∧ op.cid = (s.hart h).cid ∧ op.core = h / 8 ∧ op.node = none

/-- The rows of VZERO and VCLONE in the order of their checks: `n` from `a`, each with the row it copies from `b` (R343). -/
def rowList (a : W) (b : Option W) (n : Nat) : List (AKind × W) :=
  (upto 0 n).flatMap (fun k => (AKind.write, a + wd (1024 * k)) ::
    match b with
    | none => []
    | some v => [(AKind.read, v + wd (1024 * k))])

/-- What VQUERY reads by its selector (R345, R382). -/
def queryOf (t : Stack) (sel q : Nat) : W :=
  let v := t.veld
  let k := v.queue q
  let awake := fun (x : Layer) => decide (x.st = .current ∨ (x.st = .catchup ∧ x.powered = true))
  let mask := fun (p : Layer → Bool) => (upto 0 16).foldl (fun n l => if p (t.layer l) then n + 2 ^ l else n) 0
  match sel with
  | 0 => wd (k.ops.length % 16 + (if v.run.any (fun r => r.q == q) then 16 else 0) + (if k.err.isSome then 32 else 0))
  | 1 => wd (mask awake + 65536 * mask (fun x => decide (x.st = .current)))
  | 2 => wd k.lastT
  | 3 => (k.err.map (·.fword)).getD 0
  | 4 => wd (if v.balanced then 1 else 0)
  | _ => wd (v.locks.length + (if v.run.isSome then 1 else 0))

end Sys2Proof.Obl

open Sys2Proof Sys2Proof.Machine Sys2Proof.Obl

/-- LJOIN joins into the local replica, or with ADD adds into the stack's own slot, and a line that changed is exchanged; a
NaN posts a refusal and changes no byte. LLDT reads the cell once it reaches the threshold or the time-out has expired, and
LTMO.TO says which. LFLUSH completes when every replica is at or above what the local one held at its start (R350 to R362). -/
def Obligations.LatticeInstructions : Prop :=
  ∀ (s : State) (h : Nat) (d b ra : SReg) (off : BitVec 10) (add : Bool) (t a : Nat), s.agent = .hart h →
    (s.hart h).vq = [] → NoPosted s h → (s.hart h).colPend = 0 →
    let x := s.hart h
    let va := x.rd ra + off.signExtend 64
    let unit := unitBytes t
    let slot := if t = 10 then a + 4 * (h / 8 / 4) else a
    let v := if t = 9 then pairVal x d else (x.rd d).toNat % 2 ^ (8 * unit)
    let old := s.natAt slot unit
    let new := if add then min (old + v) 0xFFFFFFFF else latJoin t old v
    let cell := s.natAt a (cellBytes t)
    let val := if t = 10 then slotSum cell 16 else cell
    let thr := if t = 9 then pairVal x b else if cellBytes t = 4 then (x.rd b).toNat % 2 ^ 32 else (x.rd b).toNat
    let met := if t = 10 then decide (thr ≤ val) else atOrAbove t val thr
    (LatAt s (rqOf s h) .write va t a → (t = 9 → d.val % 2 = 0) → (add = true → t = 10) → ¬(t = 5 ∧ f32Nan v = true) →
      ∃ u, exec (.ljoin d off add ra) s = .next u ∧ u.natAt slot unit = new ∧
        (∀ q, q < slot ∨ slot + unit ≤ q → u.byteAt q = s.byteAt q) ∧ OnlyStored { s with ttl := u.ttl } u ∧
        (new ≠ old → tget (0, 0, 0) u.ttl (slot / 128) = (modeK (fld s.xschedNow 0 2), t, x.cid)) ∧
        (new = old → u.ttl = s.ttl) ∧ Past x (u.hart h) ∧ SameRegs x (u.hart h) ∧ OnlyTlb s u h) ∧
    (LatAt s (rqOf s h) .write va 5 a → f32Nan ((x.rd d).toNat % 2 ^ 32) = true →
      ∃ u r, exec (.ljoin d off false ra) s = .next u ∧ MemSame s u ∧
        u.refusals.find? (fun e => e.1 == s.fresh) = some (s.fresh, r) ∧ r.cause = 0x0F ∧ r.hart = h ∧ r.elem = 0 ∧
        r.va = va.toNat ∧ Past x (u.hart h) ∧ SameRegs x (u.hart h) ∧ OnlyTlb s u h) ∧
    (LatAt s (rqOf s h) .read va t a → (t = 9 → d.val % 2 = 0 ∧ b.val % 2 = 0) →
      met = true ∨ TimedOut x (.lldt d off b ra) →
      ∃ u, exec (.lldt d off b ra) s = .next u ∧ MemSame s u ∧ PastTimed x (u.hart h) (!met) ∧ OnlyTlb s u h ∧
        (u.hart h).rd d = (if d.val = 0 then 0 else if t = 2 then sext 32 val else wd val) ∧
        (t = 9 → (u.hart h).rd (pairHigh d) = wd (val / 2 ^ 64)) ∧
        ∀ k, k ≠ d → (t = 9 → k ≠ pairHigh d) → (u.hart h).rd k = x.rd k) ∧
    (let note := match x.wait with
        | none => noteLines s x.cid (h / 8 / 4)
        | some w => if w.what = Instr.lflush then w.note else noteLines s x.cid (h / 8 / 4)
     (∀ e ∈ note, ∀ k, k < 16 → lineAbove e.2.1 (replicaAt s k e.1) e.2.2 = true) → ScalarNothing s h .lflush)

/-- COLST puts its bytes behind the Col order of its stack, each in an entry of its 32-byte chunk, and changes no byte of
memory itself; COLWAIT returns COLSEQ once the hart's COLSTs are broadcast, the mask of CURRENT layers, which it first wakes,
or COLSEQ once it is reached, with LTMO.TO where the time-out ended the wait (R358, R374, R376, R378, R379). -/
def Obligations.ColInstructions : Prop :=
  ∀ (s : State) (h : Nat) (d ra rb : SReg),
    let x := s.hart h
    let k := h / 8 / 4
    (∀ (v : VReg) (imm : BitVec 10) (t off : Nat), QueueReady s h →
      let n := (rdS (agentRegs s) rb.val).toNat
      let va := rdS (agentRegs s) ra.val + imm.signExtend 64
      (n ≠ 0 → va.toNat % 4 = 0 ∧ n % 4 = 0 ∧ n ≤ 24576 ∧ ColRange s (rqOf s h) va n t off ∧ reach s k t = .ok ∧
        VecFree s .write) →
      ∃ u es, exec (.colst v imm rb ra) s = .next u ∧ VecDone s u h ∧ SameRegs x (u.hart h) ∧ SameVec x (u.hart h) ∧
        SameMasks x (u.hart h) ∧ SameBut x { u.hart h with colPend := x.colPend } ∧
        (u.hart h).colPend = x.colPend + es.length ∧ (∀ j, j ≠ h → u.hart j = s.hart j) ∧
        { u with harts := s.harts, stks := s.stks } = s ∧
        (∀ j, u.stack j = if n ≠ 0 ∧ j = t then { s.stack j with colQ := (s.stack j).colQ ++ es } else s.stack j) ∧
        (n = 0 → es = []) ∧
        (∀ i, i < n → ∃ e ∈ es, e.chunk = (off + i) / 32 ∧ e.mask.getLsbD ((off + i) % 32) = true ∧
          e.data.extractLsb' (8 * ((off + i) % 32)) 8 = x.vbyte v.val i) ∧
        ∀ e ∈ es, e.hart = h ∧ ∀ j, e.mask.getLsbD j = true → off ≤ e.chunk * 32 + j ∧ e.chunk * 32 + j < off + n) ∧
    (s.agent = .hart h →
      (x.colPend = 0 → (∀ e ∈ x.vq, ∀ v imm p q, e.instr ≠ .colst v imm p q) →
        ScalarResult s h (.colwait d) d (wd (s.stack k).colseq)) ∧
      (let m := (x.rd ra).toNat % 65536
       let have_ := liveLayers (s.stack k) m
       (have_ = m ∨ TimedOut x (.colwaitLayers d ra) →
         ∃ u, exec (.colwaitLayers d ra) s = .next u ∧ Woken s u k m ∧ (∀ j, j ≠ h → u.hart j = s.hart j) ∧
           PastTimed x (u.hart h) (decide (have_ ≠ m)) ∧ Wrote x (u.hart h) d (wd have_)) ∧
       (have_ ≠ m → ¬TimedOut x (.colwaitLayers d ra) →
         ∃ u, exec (.colwaitLayers d ra) s = .next u ∧ Woken s u k m ∧ (u.hart h).pc = x.pc ∧ SameRegs x (u.hart h))) ∧
      (let n := (s.stack k).colseq
       let want := (x.rd ra).toNat
       want ≤ n ∨ TimedOut x (.colwaitSeq d ra) →
         ∃ u, exec (.colwaitSeq d ra) s = .next u ∧ OnlyHart s u h ∧ PastTimed x (u.hart h) (decide (n < want)) ∧
           Wrote x (u.hart h) d (wd n)))

/-- DISCARD of whole unbacked lines: none of them is present after it, every other line is as it was, and no other byte of
memory changes but the late-frame table's. MIGR makes the target the current stack of the page, every present line staying
present; it changes nothing where the target is the current stack already (R363 to R371). What MIGR does where the target is
the current stack, that it takes no capacity trap there, and that the pages of a contiguity group move as one are the model's
choice of log 56. -/
def Sys2Proof.Obl.DiscardAndMigrate : Prop :=
  ∀ (s : State) (h : Nat) (a b : SReg) (ps : List (Acc × W × Nat)) (s1 : State), s.agent = .hart h → (s.hart h).vq = [] →
    NoPosted s h →
    let x := s.hart h
    let va := x.rd a
    let n := (x.rd b).toNat
    let c := s.ctx x.cid
    (va.toNat % 128 = 0 → n % 128 = 0 →
      (discardPages (rqOf s h) (pageParts (n / 4096 + 2) va n)).run s = .ok ps s1 → (∀ e ∈ ps, e.1.ub = true) →
      let hit := fun line => n ≠ 0 ∧ ∃ e ∈ ps, e.1.pa ≤ line * 128 ∧ line * 128 < e.1.pa + e.2.2
      ∃ t, exec (.discard a b) s = .next t ∧ Past x (t.hart h) ∧ SameRegs x (t.hart h) ∧
        (∀ j, j ≠ h → t.hart j = s.hart j) ∧
        (∀ line, hit line → (t.ctx x.cid).ubAt line = none) ∧
        (∀ line, ¬hit line → (t.ctx x.cid).ubAt line = c.ubAt line) ∧
        (∀ q, (∀ line k, hit line → k < 128 → q ≠ ubAddr x.cid (line * 128) + k) →
          (∀ f ∈ c.frames, q < f.2.2 ∨ f.2.2 + 8 ≤ q) →
          t.byteAt q = s.byteAt q) ∧
        ∀ j, j ≠ x.cid → { t.ctx j with tlb := [] } = { s.ctx j with tlb := [] }) ∧
    (n ≤ 15 → (discardPages (rqOf s h) [(va, 1)]).run s = .ok ps s1 → (∀ e ∈ ps, e.1.ub = true) →
      let pa := (ps.map (·.1.pa)).headD 0
      let size := scalarPage s1 x.cid va
      let base := pa - fld va 0 57 % size
      let inPage := fun line => decide (base ≤ line * 128) && decide (line * 128 < base + size)
      let moving := (c.ubLines.filter (fun e => inPage e.1 && !c.inLate e)).length
      (c.curStack pa = n → ∃ t, exec (.migr a b) s = .next t ∧ Past x (t.hart h) ∧ SameRegs x (t.hart h) ∧ OnlyTlb s t h ∧
        { t with harts := s.harts, ctxs := s.ctxs } = s) ∧
      (c.curStack pa ≠ n → c.used n + moving ≤ tget 0 c.ubres n → c.ubDir.length < 256 → pa < base + size →
        (let m := migrate s1 x.cid base size n
         ∀ line, inPage line = true → (m.ctx x.cid).ubAt line = some .cache →
           setLines m n line = [(x.cid, line)] ∧ (setHosts m n line).length < ways s.sdp) →
        (n = linStack base → linStack pa = n ∧ ∀ e ∈ c.ubDir, e.base ≤ pa → pa < e.base + e.size →
          e.base = base ∧ e.size = size) →
        ∃ t, exec (.migr a b) s = .next t ∧ Past x (t.hart h) ∧ SameRegs x (t.hart h) ∧
          (∀ j, j ≠ h → t.hart j = s.hart j) ∧ (t.ctx x.cid).curStack pa = n ∧ t.mem = s.mem ∧
          ∀ line, ((t.ctx x.cid).ubAt line).isSome = (c.ubAt line).isSome))

/-- A load that makes an unbacked line present in a set whose ways are all taken, while every other unbacked line of that set
differs from zero, the victim buffer is full and the spill pool has no free frame, removes its context with cause 0x30, and
TVAL is the address of the line that is lost (R365, R366, R368, R398). -/
def Sys2Proof.Obl.SpillExhaustionRemoves : Prop :=
  ∀ (s : State) (h : Nat) (i : Instr) (d : SReg) (va : W) (n : Nat) (f : Nat → W) (acc : Acc) (p : Place) (e : Option TlbE),
    Quiet s h → loadOf (s.hart h) i = some (d, va, n, f) → va.toNat % n = 0 →
    resolve s (rqOf s h) .scalar .read va n = (.ok (acc, p), e) → acc.ub = true → acc.lt = 0 → acc.pa % 128 + n ≤ 128 →
    svfHolds s .scalar .read = false → sptWaits s h = false →
    let cid := (s.hart h).cid
    let c := s.ctx cid
    let line := acc.pa / 128
    let st := c.curStack acc.pa
    (tkeys s.ctxs).Nodup → c.ubAt line = none → c.curStack (line * 128) = st → c.used st < tget 0 c.ubres st →
    ways s.sdp ≤ (setLines s st line).length → setHosts s st line = [] → 64 ≤ (s.stack st).victims.length →
    c.freeFrame = none →
    (∀ v ∈ setLines s st line, v.1 = cid ∧ c.frameOf v.2 = none ∧ s.natAt (ubAddr cid (v.2 * 128)) 128 ≠ 0) →
    Leaves s cid →
    ∃ t v w, exec i s = .next t ∧ v ∈ setLines s st line ∧ RemovedFrom s t cid 0x30 w ∧
      ∀ x ∈ c.vpt.find? (fun x => decide (x.ppn * 0x200000 ≤ v.2 * 128) && decide (v.2 * 128 < x.ppn * 0x200000 + pageBytes x.psz)),
        w = sext 57 (x.vpn * 0x200000 + (v.2 * 128 - x.ppn * 0x200000))

/-- The Veld instructions complete: VLAUNCH, VZERO and VCLONE join the launch queue of their core after the checks of R334
and R343 and return their number; VLAUNCH with CLR frees a faulted queue; VRLOCK takes a free lock entry and returns it;
VRUNLOCK frees it; VQUERY reads what its selector names (R332 to R345). -/
def Obligations.VeldInstructions : Prop :=
  ∀ (s : State) (h : Nat) (d a b c : SReg) (dv : Bool) (sel : BitVec 4), VeldReady s h →
    let x := s.hart h
    let st := h / 8 / 4
    let v := (s.stack st).veld
    let k := tlKey x.cid (h / 8) 2
    let q := v.queue (h / 8 % 4)
    let off := x.rd a
    let y := descOf s h off
    let n := (x.rd b).toNat
    (∀ subs, descPlace s off → launchOk y = true → checkRegion s (rqOf s h) y = .ok subs → QueueFree s h →
      ∃ op, Launched s h (.vlaunch d a) d op ∧ OpOf s h .launch op ∧ op.subs = subs ∧ op.rows = [] ∧
        op.va = wd (y % 2 ^ 64) ∧ op.lmask = y / 2 ^ 192 % 2 ^ 16 ∧ op.iter = y / 2 ^ 208 % 2 ^ 16 ∧
        op.mcoff = y / 2 ^ 224 % 2 ^ 16 ∧ op.rstep = sInt 16 (y / 2 ^ 240) ∧ op.dv = (y / 2 ^ 256 % 2 == 1)) ∧
    (∀ pas, (x.rd a).toNat % 1024 = 0 → n ≤ 1008 → checkRows s (rqOf s h) (rowList (x.rd a) none n) = .ok pas →
      QueueFree s h → ∃ op, Launched s h (.vzero d dv a b) d op ∧ OpOf s h .zero op ∧ op.dv = dv ∧
        op.rows.map (·.1) = pas.map (· / 1024)) ∧
    (∀ pas, (x.rd a).toNat % 1024 = 0 → (x.rd b).toNat % 1024 = 0 → (x.rd c).toNat ≤ 1008 →
      checkRows s (rqOf s h) (rowList (x.rd a) (some (x.rd b)) (x.rd c).toNat) = .ok pas → QueueFree s h →
      ∃ op, Launched s h (.vclone d dv a b c) d op ∧ OpOf s h .clone op ∧ op.dv = dv ∧
        op.rows.flatMap (fun p => [p.1, p.2]) = pas.map (· / 1024)) ∧
    (q.err = none → ScalarResult s h (.vlaunchClear d) d (wd (s.tl k).acc)) ∧
    (q.err.isSome = true → ∃ t, exec (.vlaunchClear d) s = .next t ∧ Past x (t.hart h) ∧
      Wrote x (t.hart h) d (wd (s.tl k).acc) ∧ (∀ j, j ≠ h → t.hart j = s.hart j) ∧ t.mem = s.mem ∧
      (t.stack st).veld.queue (h / 8 % 4) = { q with ops := [], err := none } ∧
      (t.tl k).cnt = (s.tl k).acc ∧ (t.tl k).err = none) ∧
    (∀ subs, descPlace s off → lockOk y = true → checkRegion s (rqOf s h) y = .ok subs → heldBy v subs = false →
      v.locks.length + (if v.run.isSome then 1 else 0) < 16 →
      ∃ t e, exec (.vrlock d a) s = .next t ∧ e < 16 ∧ (∀ l ∈ v.locks, l.1 ≠ e) ∧ Past x (t.hart h) ∧
        Wrote x (t.hart h) d (wd e) ∧ (∀ j, j ≠ h → t.hart j = s.hart j) ∧ t.mem = s.mem ∧
        (t.stack st).veld.locks.find? (fun l => l.1 == e) =
          some (e, { cid := x.cid, hart := h, band := x.band, subs := subs, start := s.clock }) ∧
        ∀ j, j ≠ e → (t.stack st).veld.locks.find? (fun l => l.1 == j) = v.locks.find? (fun l => l.1 == j)) ∧
    (∀ l, v.locks.find? (fun e => e.1 == (x.rd a).toNat) = some ((x.rd a).toNat, l) → l.cid = x.cid → x.colPend = 0 →
      ∃ t, exec (.vrunlock dv a) s = .next t ∧ Past x (t.hart h) ∧ SameRegs x (t.hart h) ∧
        { t with harts := s.harts, stks := s.stks } = s ∧ (∀ j, j ≠ h → t.hart j = s.hart j) ∧
        (∀ e ∈ (t.stack st).veld.locks, e.1 ≠ (x.rd a).toNat) ∧
        ∀ j, j ≠ (x.rd a).toNat → (t.stack st).veld.locks.find? (fun e => e.1 == j) = v.locks.find? (fun e => e.1 == j)) ∧
    (sel.toNat < 6 → ScalarResult s h (.vquery d sel a) d (queryOf (s.stack st) sel.toNat ((x.rd a).toNat % 4)))

namespace Sys2Proof.Obl
open Sys2Proof.Machine

/-- The instruction or event completes in a state with property `p`. -/
def Runs (i : Instr) (s : State) (p : State → Prop) : Prop := ∃ t, exec i s = .next t ∧ p t

/-- Only hardware queue `q` of stack `st` has changed. -/
def OnlyQueue (s t : State) (st q : Nat) : Prop :=
  { t with stks := s.stks } = s ∧ (∀ j, j ≠ st → t.stack j = s.stack j) ∧
    { t.stack st with queues := (s.stack st).queues } = s.stack st ∧
    ∀ p, p ≠ q → (t.stack st).queue p = (s.stack st).queue p

/-- Records that a ring would hold with a tail (R411). -/
def pendingAt (k : HQueue) (tail : Nat) : Nat := (tail + 65536 - k.head) % 65536

/-- The bytes of an engine's range, in whatever pieces within a line it takes them, are plain. -/
def EngineBytes (s : State) (r : Rq) (k : AKind) (va : W) (n : Nat) (addr : W → Nat) : Prop :=
  ∀ o m, 0 < m → o + m ≤ n → (va + wd o).toNat % 128 + m ≤ 128 →
    PlainAt s r .copy k (va + wd o) m (addr (va + wd o)) ∧
      ∀ i, i < m → addr (va + wd o + wd i) = addr (va + wd o) + i

/-- An operation of this number has completed on its timeline (R260). -/
def CountedOn (t : Timeline) (n : Nat) : Prop := n ≤ t.cnt ∨ n ∈ t.done

/-- The mailbox takes a command (R417). -/
def MailboxFree (s : State) : Prop := s.life = .ready ∧ s.mbstat ≠ 1

/-- Bit `j` of a row of 1,024 bytes at a canonical address. -/
def rowBit (s : State) (a j : Nat) : Bool := (s.byteAt (a + j / 8)).getLsbD (j % 8)

/-- A row can be read as it stands: no bit error and no poison, no key but 0, and no line of it compressed or of a bad tag
(R249, R250, R317, R327). -/
def PlainRow (s : State) (a : Nat) : Prop :=
  (∀ p, p < 64 → tget 0 s.softErr (a / 16 + p) = 0 ∧ s.poisoned (a / 16 + p) = false) ∧
    ∀ l, l < 8 → tget 0 s.keyIds (a / 128 + l) = 0 ∧ tget 0 s.tags (a / 128 + l) = 0

/-- The bits of a row stand as they are read: no bit error that shows yet, no data that one has left open, no key but 0, and no
line compressed or of a bad tag (R249, R250, R317, R327, R349). -/
def CellRow (s : State) (a : Nat) : Prop :=
  (∀ p, p < 64 → tget 0 s.softErr (a / 16 + p) = 0 ∧ s.isLost (a / 16 + p) = false) ∧
    ∀ l, l < 8 → tget 0 s.keyIds (a / 128 + l) = 0 ∧ tget 0 s.tags (a / 128 + l) = 0

/-- DCC0N and DCC1N, the complement ports of rows 1012 and 1014 (R20, R318). -/
def isPort (row : Nat) : Bool := row == 1013 || row == 1015

/-- The cells of a row of subarray `u`: those of its row for a complement port (R318). -/
def cellsOf (u row : Nat) : Nat := u * 2 ^ 20 + (if isPort row then row - 1 else row) * 1024

/-- Lane `j` of a row as a move reads it: C0 all zeros, C1 all ones, a complement port the complement (R318). -/
def laneOf (s : State) (u row j : Nat) : Bool :=
  if row = 1016 then false else if row = 1017 then true else rowBit s (cellsOf u row) j != isPort row

/-- The poison of codeword `q` of a row that a move reads; constants have none (R320, R321). -/
def lanePoison (s : State) (u row q : Nat) : Bool :=
  decide (row ≠ 1016 ∧ row ≠ 1017) && s.poisoned (cellsOf u row / 16 + q)

/-- The subarray that a move into subarray `u` reads: for XLY the same one of the source layer (R320). -/
def sourceSub (w : MoveW) (u : Nat) : Nat := if w.kind = 7 then u - w.mod % 16 * 4096 + w.mod / 16 * 4096 else u

/-- What a move, MAJ, a shift or XLY gives lane `j` of its destination in subarray `u` (R320). -/
def moved (s : State) (w : MoveW) (u j : Nat) : Bool :=
  let x := laneOf s (sourceSub w u) w.src
  let t := fun k => laneOf s u (1008 + k) j
  let fill := w.mod % 2 == 1
  if w.kind = 2 then (t 0 && t 1) || (t 0 && t 2) || (t 1 && t 2)
  else if w.kind = 3 then (if j = 0 then fill && x 8191 else x (j - 1))
  else if w.kind = 4 then (if j = 8191 then fill && x 0 else x (j + 1))
  else x j

/-- The poison that it gives codeword `q` of its destination (R320). -/
def movedPoison (s : State) (w : MoveW) (u q : Nat) : Bool :=
  let x := lanePoison s (sourceSub w u) w.src
  let t := fun k => lanePoison s u (1008 + k) q
  let fill := w.mod % 2 == 1
  if w.kind = 2 then t 0 || t 1 || t 2
  else if w.kind = 3 then x q || (if q = 0 then fill && x 63 else x (q - 1))
  else if w.kind = 4 then x q || (if q = 63 then fill && x 0 else x (q + 1))
  else x q

/-- MAJ writes T0, T1 and T2 in every lane, also where one of them is its destination (R320). -/
def isTripled (w : MoveW) : Bool := w.kind == 2 && decide (1008 ≤ w.dst) && decide (w.dst ≤ 1010)

/-- The lanes of its destination row that a word writes in subarray `u` (R320). -/
def maskOf (r : VRun) (w : MoveW) (u : Nat) : Nat := if isTripled w then 2 ^ 8192 - 1 else tget (2 ^ 8192 - 1) r.wmask u

/-- The rows that a word reads in subarray `u`, and the one that it writes in some lanes only, stand as they are read. -/
def RowsReady (s : State) (r : VRun) (w : MoveW) (u : Nat) : Prop :=
  (w.kind = 2 → ∀ k, k < 3 → CellRow s (cellsOf u (1008 + k))) ∧
    (w.kind ≠ 2 → w.src ≠ 1016 → w.src ≠ 1017 → CellRow s (cellsOf (sourceSub w u) w.src)) ∧
    (maskOf r w u = 2 ^ 8192 - 1 ∨ CellRow s (cellsOf u w.dst))

/-- The destination row of a word in subarray `u` after it: its lanes under the write mask, every other lane as it was, and
the poison of its codewords (R318, R320, R321); under MAJ the rows T0, T1 and T2 too. -/
def RowWritten (s t : State) (r : VRun) (w : MoveW) (u : Nat) : Prop :=
  let a := cellsOf u w.dst
  let on := (maskOf r w u).testBit
  (∀ j, j < 8192 → rowBit t a j = if on j then moved s w u j != isPort w.dst else rowBit s a j) ∧
    (∀ q, q < 64 → ((∀ j, j < 128 → on (128 * q + j) = true) → t.poisoned (a / 16 + q) = movedPoison s w u q) ∧
      ((∀ j, j < 128 → on (128 * q + j) = false) → t.poisoned (a / 16 + q) = s.poisoned (a / 16 + q)) ∧
      ((∃ j, j < 128 ∧ on (128 * q + j) = true) → (∃ j, j < 128 ∧ on (128 * q + j) = false) →
        t.poisoned (a / 16 + q) = (s.poisoned (a / 16 + q) || movedPoison s w u q))) ∧
    (w.kind = 2 → ∀ k, k < 3 → (∀ j, j < 8192 → rowBit t (cellsOf u (1008 + k)) j = moved s w u j) ∧
      ∀ q, q < 64 → t.poisoned (cellsOf u (1008 + k) / 16 + q) = movedPoison s w u q)

/-- The first `1,024` bytes from the cells of a row. -/
def inCells (u row a : Nat) : Prop := cellsOf u row ≤ a ∧ a < cellsOf u row + 1024

/-- A layer has left the word at its head behind, in a step or without one; the other layers have not changed. -/
def LayersPast (s t : State) (st : Nat) (steps : Nat → Bool) : Prop :=
  ∀ l, l < 16 →
    let x := (s.stack st).layer l
    (t.stack st).layer l = if steps l then { x with fifo := x.fifo.tail, steps := x.steps + 1 } else x

/-- The sequencer at `r` sends the word `w` of the program and stands at `m` then (R320, R322, R323, R335): the row fields are
advanced; a LOOP repeats its body, and an END begins the next iteration or ends the launch. -/
def SendsWord (r : VRun) (w : MoveW) (m : VRun) : Prop :=
  r.clear = 0 ∧ r.sent = false ∧ ∃ x, r.prog[r.ix]? = some x ∧
    let k := x.toNat / 2 ^ 28
    let loop := fun p => r.prog.getD p 0
    let stride : Int := match r.loopAt with
      | none => 0
      | some p => sInt 8 ((loop p).toNat % 256)
    let row := fun (field : Bool) (n : Nat) =>
      if field = true ∧ n < 1008 then ((n : Int) + (r.rep : Int) * stride + (r.iter : Int) * r.op.rstep).toNat else n
    w = { kind := k, dst := row ([1, 2, 3, 4, 7].contains k) (x.toNat / 2 ^ 18 % 1024)
          src := row ([1, 3, 4, 7].contains k) (x.toNat / 2 ^ 8 % 1024), mod := x.toNat % 256, ix := r.count } ∧
    m.count = r.count + 1 ∧
    { m with count := r.count, ix := r.ix, iter := r.iter, sent := r.sent, loopAt := r.loopAt, rep := r.rep } = r ∧
    (k = 8 → m.ix = r.ix + 1 ∧ m.loopAt = some r.ix ∧ m.rep = 0 ∧ m.iter = r.iter ∧ m.sent = false) ∧
    (k = 15 → m.ix = 0 ∧ m.iter = r.iter + 1 ∧ m.sent = decide (r.op.iter ≤ r.iter + 1)) ∧
    (k ≠ 8 → k ≠ 15 → m.iter = r.iter ∧ m.sent = false ∧ match r.loopAt with
      | none => m.ix = r.ix + 1 ∧ m.loopAt = none
      | some p =>
        let n := (loop p).toNat / 2 ^ 8 % 1024
        let count := (loop p).toNat / 2 ^ 18 % 1024 + 1
        if r.ix < p + n then m.ix = r.ix + 1 ∧ m.loopAt = some p ∧ m.rep = r.rep
        else if r.rep + 1 < count then m.ix = p + 1 ∧ m.loopAt = some p ∧ m.rep = r.rep + 1
        else m.ix = r.ix + 1 ∧ m.loopAt = none ∧ m.rep = 0)

/-- The sequencer sends these words of the program, one after the other. -/
def SendsAll : VRun → List MoveW → VRun → Prop
  | r, [], m => m = r
  | r, w :: l, m => ∃ n, SendsWord r w n ∧ SendsAll n l m

/-- No bank of a stack owes a refresh that goes before the next step (R336), and no access waits for a gap (R337). -/
def NoRefresh (s : State) (st : Nat) : Prop :=
  ∀ l b r n, gapAt s st l b = some (r, n) → refreshGoes s st l b r n = false ∧ ∀ a ∈ r.asks, a.got = true

/-- The refreshes of the slowest of some banks and the gap accesses of all of them lengthen an operation by `x` ns (R331). -/
def GapNs (r : VRun) (lbs : List Nat) (x : Nat) : Prop :=
  ∃ f, (∀ b ∈ lbs, tget 0 r.refresh b ≤ f) ∧ (f = 0 ∨ ∃ b ∈ lbs, tget 0 r.refresh b = f) ∧
    x = 120 * f + 48 * sumOf (lbs.map (tget 0 r.gaps))

/-- What of a stack's running operation has changed: only `run` of its sequencer. -/
def OnlyRun (s t : State) (st : Nat) (r : VRun) : Prop :=
  { t with stks := s.stks } = s ∧ (∀ j, j ≠ st → t.stack j = s.stack j) ∧ (t.stack st).veld.run = some r ∧
    { t.stack st with veld := { (t.stack st).veld with run := (s.stack st).veld.run } } = s.stack st

/-- The engine's queue starts with copy `x`, the engine moves, and no window write of it waits (R238, R292, R295). -/
def CopyAt (s : State) (core : Nat) (x : CopyCtx) (rest : List CopyCtx) : Prop :=
  (s.core core).copies = x :: rest ∧ x.node = none ∧ x.bar = none ∧ copyMoves s core x = true ∧
    ∀ w ∈ s.winParts, w.who ≠ 576 + core

/-- Copy `x` goes on as `y`, or has completed under its number and left the engine (R260, R292, R295). -/
def CopyPassed (t : State) (core : Nat) (y : CopyCtx) (rest : List CopyCtx) : Prop :=
  if y.isOver then (t.core core).copies = rest ∧ CountedOn (t.tl (tlKey y.cid y.core 0)) y.opno
  else (t.core core).copies = y :: rest

/-- Row `b` of a COPYX tile lies at `row0 + 1024 × b` in the bank-linear window, in DRAM of the core's own stack, outside
compressed, lattice, unbacked and keyed regions, in a bank where nothing computes (R301, R302, R337). -/
def PlaneRows (s : State) (core : Nat) (x : CopyCtx) (row0 : Nat) : Prop :=
  let base := x.paddr + wd (64 * x.gran)
  row0 % 1024 + 64 ≤ 1024 ∧ row0 % 64 = 0 ∧ linStack row0 = core / 4 ∧ linRow row0 + x.wm1 < 1008 ∧
    (∀ b, b ≤ x.wm1 → linRow base.toNat + b < 1008 ∧ linRow (base + wd (1024 * b)).toNat < 1008 ∧
      computing s (row0 + 1024 * b) = none ∧
      (∃ acc, (resolve s (copyRq core x) .copy (if x.dir then .read else .write) (base + wd (1024 * b)) 64).1 =
          .ok (acc, .dram (row0 + 1024 * b) false) ∧ acc.cmp = false ∧ acc.lt = 0 ∧ acc.ub = false ∧ acc.key = 0) ∧
      CleanDram s x.cid 0 (row0 + 1024 * b) 64 0)

/-- The address and number of lanes of the next tile of a COPYX (R301). -/
def tileHoriz (x : CopyCtx) : W × Nat := (x.haddr + wd (512 * x.gran * (x.sew / 8)), min 512 (x.vl - 512 * x.gran))

/-- The addresses of a COPYX are as R301 asks. -/
def TilePlaced (x : CopyCtx) : Prop :=
  (x.paddr.toNat % 1024) % 64 = 0 ∧ 8 * (x.paddr.toNat % 1024) + 512 * ((x.vl + 511) / 512) ≤ 8192 ∧
    (x.sew = 8 ∨ x.sew = 16) ∧ x.haddr.toNat % (x.sew / 8) = 0 ∧ x.wm1 < x.sew

end Sys2Proof.Obl

open Sys2Proof Sys2Proof.Machine Sys2Proof.Obl

/-- The writes from outside a program: the control-register window and BAR0, a scratchpad through the on-chip window, MENTRY
through the firmware's aperture, SFRQH, XSCHED, COLALLOC, the route tables, queue tails and states, PCTL, PCLAMP, the outbound
windows and the debugger's arming store their fields by access type and change nothing else (R34, R48, R49, R173, R237, R355,
R372, R384, R395, R401, R408 to R411, R417, R419, R424, R425). The model's choices are: the times that queue tails keep (log
35), in which life states a write acts (log 36), what EN does while the link's phases last, the tables loaded at a reopening and
the firmware's PCLAMP above the host's (log 39), what PCLAMP reads (log 91), and that the writes of the management core reach a
stack over channel 3 (R32; log 94). -/
def Obligations.RegisterWriteEvents : Prop :=
  ∀ (s : State),
    (∀ h idx v w, s.life = .ready → h < 512 → reachOn s 3 3 0 (h / 32) = .ok → crAfter (crRead s h idx) v idx = some w →
      Runs (.evRegisterWrite (.window h idx) v) s fun t =>
        crRead t h idx = w ∧ (∀ j, j ≠ idx → crRead t h j = crRead s h j) ∧
        (∀ k, k ≠ h → t.hart k = s.hart k) ∧ { t with harts := s.harts, ctxs := s.ctxs, xsched := s.xsched } = s) ∧
    (∀ c off v, s.life = .ready → c < 64 → reachOn s 3 3 0 (c / 4) = .ok → off % 8 = 0 → off + 8 ≤ spBytes s.sdp →
      Runs (.evRegisterWrite (.chip (spadAddr c off) 8) v) s fun t =>
        StoredAt s t (spadAddr c off) 8 v.toNat ∧ t.harts = s.harts ∧ t.cores = s.cores) ∧
    (∀ st k v, s.life = .ready → st < 16 → k < 32 → reachOn s 3 3 0 st = .ok →
      Runs (.evRegisterWrite (.aperture st (0xFF0000 + k * 0x800 + 0x7F8)) v) s fun t =>
        OnlyHart s t (32 * st + k) ∧ t.hart (32 * st + k) = { s.hart (32 * st + k) with mentry := v }) ∧
    (∀ st q v, s.life ≠ .failed → st < 16 → q < 16 → ((s.stack st).queue q).st ≠ .active →
      ((s.stack st).queue q).st ≠ .drain → Runs (.evRegisterWrite (.bar0 (st * 0x400 + q * 0x40)) v) s fun t =>
        let y := (t.stack st).queue q
        OnlyQueue s t st q ∧ fld y.qbase 12 36 = fld v 12 36 ∧
          fld y.qbase 0 12 = fld ((s.stack st).queue q).qbase 0 12 ∧
          { y with qbase := ((s.stack st).queue q).qbase } = (s.stack st).queue q) ∧
    (∀ h v, s.life = .ready → h < 512 → (s.hart h).live = true →
      let c := s.core (h / 8)
      let off := fld v 0 32
      let mine := fun (r : SfRec) => r.cid == (s.hart h).cid
      let recs := (c.sfrq.filter mine).take (fld v 32 7)
      off % 32 = 0 → off + 32 * recs.length ≤ spBytes s.sdp → Runs (.evSfrqhWrite h v) s fun t =>
        let y := t.core (h / 8)
        (∀ i r, recs[i]? = some r → t.natAt (spadAddr (h / 8) off + 32 * i) 32 = r.word) ∧
        (∀ a, (a < spadAddr (h / 8) off ∨ spadAddr (h / 8) off + 32 * recs.length ≤ a) → t.byteAt a = s.byteAt a) ∧
        y.sfrq.filter mine = (c.sfrq.filter mine).drop recs.length ∧
        (y.sfrq.filter (fun r => !mine r)) = c.sfrq.filter (fun r => !mine r) ∧ t.harts = s.harts) ∧
    (∀ v, s.life = .ready → Runs (.evXschedWrite v) s fun t =>
      fld t.xsched 16 16 = fld v 16 16 ∧ fld t.xsched 0 2 = (if fld v 0 2 = 3 then fld s.xsched 0 2 else fld v 0 2) ∧
      fld t.xsched 2 14 = fld s.xsched 2 14 ∧ fld t.xsched 32 32 = fld s.xsched 32 32 ∧ { t with xsched := s.xsched } = s) ∧
    (∀ st v, s.life = .ready → st < 16 → reachOn s 3 3 0 st = .ok → Runs (.evColallocWrite st v) s fun t =>
      ∃ w, (t.stack st).colallocNew = some w ∧
        let old := (s.stack st).colallocNew.getD (s.stack st).colalloc
        fld w 0 7 = (if 64 < fld v 0 7 then fld old 0 7 else fld v 0 7) ∧ fld w 7 57 = fld old 7 57 ∧
        { t.stack st with colallocNew := (s.stack st).colallocNew } = s.stack st ∧
        (∀ j, j ≠ st → t.stack j = s.stack j) ∧ { t with stks := s.stks } = s) ∧
    (∀ st ent v, s.life = .ready → st < 16 → ent < 16 → reachOn s 3 3 0 st = .ok → Runs (.evRouteTableWrite st ent v) s fun t =>
      ((t.stack st).route st ent).toNat = v.toNat % 2 ^ 24 + v.toNat / 2 ^ 28 * 2 ^ 28 ∧
        (∀ e, e ≠ ent → (t.stack st).route st e = (s.stack st).route st e) ∧ (∀ j, j ≠ st → t.stack j = s.stack j) ∧
        { t with stks := s.stks } = s) ∧
    (∀ st ent v w, reachOn s 3 3 0 st = .held ∨ reachOn s 3 3 0 st = .unreached →
      Runs (.evRouteTableWrite st ent v) s (fun t => { t with out := s.out } = s) ∧
        Runs (.evColallocWrite st w) s fun t => { t with out := s.out } = s) ∧
    (∀ st q v, s.life ≠ .failed → st < 16 → q < 16 →
      let k := (s.stack st).queue q
      let full := 2 ^ k.logn < pendingAt k v.toNat ∨ k.st = .drain ∨ k.st = .disabled
      Runs (.evQtailWrite st q v) s fun t =>
        let y := (t.stack st).queue q
        OnlyQueue s t st q ∧ (full → y = { k with terr := true }) ∧
          (¬full → y.tail = v.toNat ∧ y.head = k.head ∧ y.terr = k.terr ∧
            y.st = (if v.toNat = k.head ∧ (k.st = .idle ∨ liveGraphs s st q = 0) then .idle else .active) ∧
            (∀ e ∈ k.tails, pendingAt k e.1 < pendingAt k v.toNat → e ∈ y.tails) ∧
            (pendingAt k v.toNat ≠ 0 → (∀ e ∈ k.tails, pendingAt k e.1 < pendingAt k v.toNat) → (v.toNat, s.time) ∈ y.tails) ∧
            ∀ e, pendingAt k v.toNat ≠ 0 → k.tails.find? (fun e => decide (pendingAt k v.toNat ≤ pendingAt k e.1)) = some e →
              (v.toNat, e.2) ∈ y.tails)) ∧
    (∀ st q, s.life ≠ .failed → st < 16 → q < 16 →
      let k := (s.stack st).queue q
      (Runs (.evQueueDisable st q) s fun t =>
        OnlyQueue s t st q ∧ (t.stack st).queue q =
          { k with en := false, st := if k.st = .disabled ∨ liveGraphs s st q = 0 then .disabled else .drain }) ∧
      (k.st = .disabled ∨ k.st = .idle → Runs (.evQueueEnable st q) s fun t =>
        OnlyQueue s t st q ∧ (t.stack st).queue q =
          { k with en := true, st := if k.tail = k.head then .idle else .active })) ∧
    (∀ p en, s.life ≠ .failed → p < 8 → Runs (.evPctlEnWrite p en) s fun t =>
      let x := s.port p
      { t with ports := s.ports, ctxs := s.ctxs } = s ∧ (∀ j, j ≠ p → t.port j = s.port j) ∧
        (x.up = false ∨ x.down = false ∨ en = false ∨ x.dropping ≠ [] → t.ctxs = s.ctxs) ∧
        (x.up = false → t.port p = x) ∧
        (x.up = true → x.down = false ∨ en = false → t.port p = { x with en := en }) ∧
        (x.up = true → x.down = true → en = true → x.dropping ≠ [] → t.port p = { x with en := true, enPending := true }) ∧
        (x.up = true → x.down = true → en = true → x.dropping = [] →
          t.port p = { x with en := true, down := false, enPending := false } ∧
          ∀ c, { t.ctx c with vpt := (s.ctx c).vpt } = s.ctx c ∧
            ((s.ctx c).installed = true → (t.ctx c).vpt = vptLoad t (s.ctx c).vptb))) ∧
    (∀ v, s.life ≠ .failed → Runs (.evPclampWrite true v) s fun t => t = { s with clampHost := min v.toNat 1800 } ∧
      powerLimit t = if s.clampFw < min v.toNat 1800 then s.clampFw else min v.toNat 1800) ∧
    (∀ v, s.life = .ready → Runs (.evPclampWrite false v) s fun t =>
      t = (if s.clampHost < v.toNat then s else { s with clampFw := v.toNat }) ∧
      (v.toNat ≤ s.clampHost → powerLimit t = v.toNat)) ∧
    (∀ p ix w, p < 8 → ix < 16 → Runs (.evOutboundWindowWrite p ix w) s fun t =>
      tget Win.reset (t.port p).wins ix =
        { valid := true, base := w.base.toNat, limit := w.limit.toNat, r := w.r, w := w.w, kind := w.kind } ∧
      (∀ j, j ≠ ix → tget Win.reset (t.port p).wins j = tget Win.reset (s.port p).wins j) ∧
      (∀ j, j ≠ p → t.port j = s.port j) ∧ { t with ports := s.ports } = s) ∧
    (∀ h on, s.life = .ready → h < 512 → Runs (.evDebuggerArm h on) s fun t =>
      OnlyHart s t h ∧ fld (t.hart h).hstat 4 1 = b01 on ∧ fld (t.hart h).hstat 0 4 = fld (s.hart h).hstat 0 4 ∧
        fld (t.hart h).hstat 5 59 = fld (s.hart h).hstat 5 59 ∧ { t.hart h with hstat := (s.hart h).hstat } = s.hart h)

/-- The mesh and its requests: a packet is delivered in the order of its route, forwarded or found in error; a receiver stops
a link at 32 free flits of 128 and lets it go on at 64; a link goes down; a home performs each request once and answers; the
source takes the answer; a request without one is sent again up to four times and then answered as unreachable (R33, R35 to
R37, R252, R268, R418). That both directions of a link go down and that a packet which ends at a wrong stack is lost are the
model's choices of log 38. -/
def Obligations.FabricEvents : Prop :=
  ∀ (s : State),
    (∀ r q, s.req? r = some q → q.moving = true →
      let d := q.turns % 4
      let dst := if q.phase = .back then q.src / 32 else q.home
      (q.hops = 0 → q.router ≠ dst → Runs (.evMeshPacketArrive r) s fun t =>
        t.req? r = some { q with lost := true } ∧ t.mem = s.mem) ∧
      (q.hops = 0 → q.router = dst → (∀ e ∈ s.reqs, e.2.moving = true → e.2.vc = q.vc → e.2.ends = q.ends →
          e.2.entry = q.entry → q.stamp ≤ e.2.stamp) →
        Runs (.evMeshPacketArrive r) s fun t => t.req? r = some { q with here := true } ∧ t.mem = s.mem) ∧
      (∀ e ∈ s.reqs, q.hops = 0 → q.router = dst → e.2.moving = true → e.2.vc = q.vc → e.2.ends = q.ends →
        e.2.entry = q.entry → e.2.stamp < q.stamp → Runs (.evMeshPacketArrive r) s fun t => t = s) ∧
      (∀ n, 0 < q.hops → q.hops < 13 → q.came ≠ some d → neighbour q.router d = some n →
        tget false s.linksDown (4 * q.router + d) = false → tget false s.linkOff ((4 * q.router + d) * 4 + q.vc) = false →
        bufferFlits s (4 * q.router + d) q.vc < 128 →
        Runs (.evMeshPacketArrive r) s fun t =>
          t.req? r = some { q with router := n, hops := q.hops - 1, turns := q.turns / 4, came := some ((d + 2) % 4) } ∧
            t.mem = s.mem) ∧
      (13 ≤ q.hops ∨ (0 < q.hops ∧ (q.came = some d ∨ neighbour q.router d = none)) →
        Runs (.evMeshPacketArrive r) s fun t =>
          t.req? r = some { q with phase := .unreachable } ∧ t.out = s.out ++ [.routingError q.router] ∧ t.mem = s.mem)) ∧
    (∀ l vc n, l < 64 → vc < 4 → neighbour (l / 4) (l % 4) = some n →
      (Runs (.evBackpressureSignal l vc false) s fun t => tget false t.linkOff (l * 4 + vc) = true ∧ 96 ≤ bufferFlits t l vc ∧
        (∀ j, j ≠ l * 4 + vc → tget false t.linkOff j = tget false s.linkOff j) ∧
        { t with linkOff := s.linkOff, linkFlits := s.linkFlits } = s) ∧
      (bufferFlits s l vc ≤ 64 → Runs (.evBackpressureSignal l vc true) s fun t =>
        tget false t.linkOff (l * 4 + vc) = false ∧ bufferFlits t l vc ≤ 64 ∧
        (∀ j, j ≠ l * 4 + vc → tget false t.linkOff j = tget false s.linkOff j) ∧
        { t with linkOff := s.linkOff, linkFlits := s.linkFlits } = s)) ∧
    (∀ r q, s.req? r = some q → q.phase = .out → q.here = true →
      (∀ v, s.served.find? (fun e => e.1 == q.tag) = some (q.tag, v) → Runs (.evFabricRequestReceive r) s fun t =>
        t.mem = s.mem ∧ ∃ p, t.req? r = some p ∧ p.phase = .back ∧ p.resp = v ∧ p.seq = q.seq) ∧
      ((∀ e ∈ s.served, e.1 ≠ q.tag) →
        (homeHeld s (1024 + r) q.acc (placeOf s.sdp q.acc.pa) q.n = true → Runs (.evFabricRequestReceive r) s fun t =>
          t = askGaps s (1024 + r) q.acc (placeOf s.sdp q.acc.pa) q.n) ∧
        (homeHeld s (1024 + r) q.acc (placeOf s.sdp q.acc.pa) q.n = false → Runs (.evFabricRequestReceive r) s fun t =>
          let v := perform (takeGaps s (1024 + r) q.acc (placeOf s.sdp q.acc.pa) q.n) q
          t.mem = v.2.mem ∧ t.served.find? (fun e => e.1 == q.tag) = some (q.tag, v.1) ∧
            ∃ p, t.req? r = some p ∧ p.phase = .back ∧ p.resp = v.1 ∧ p.seq = q.seq))) ∧
    (∀ r q v, s.req? r = some q → q.live = true →
      (q.phase = .back ∧ q.here = true ∧ v = q.resp) ∨ (q.phase = .unreachable ∧ v = unreachedResp s q) →
      Runs (.evFabricResponseReceive r) s fun t =>
        t.mem = s.mem ∧ (q.phase = .back → ∀ e ∈ t.served, e.1 ≠ q.tag) ∧
        (∀ e ∈ s.served, q.phase = .unreachable ∨ e.1 ≠ q.tag → e ∈ t.served) ∧
        (q.op.isWrite = true → t.req? r = none ∧ (v.refused = [] → t.refusals = s.refusals) ∧
          ∀ off c, v.refused = [(off, c)] → ∃ x, t.refusals.find? (fun e => e.1 == s.fresh) = some (s.fresh, x) ∧
            x.hart = q.src ∧ x.cause = c ∧ x.va = q.acc.va + off ∧ x.elem = 0) ∧
        (q.op.isWrite = false → t.req? r =
          if (s.hart q.src).await = some r then some { q with phase := .done, resp := v } else none)) ∧
    (∀ q, (unreachedResp s q).poison = (match q.op with
        | .read => true
        | _ => false) ∧
      (unreachedResp s q).deny = (match q.op with
        | .read => false
        | .write _ => false
        | _ => true) ∧
      (unreachedResp s q).refused = (if q.op.isWrite then [(0, 0x0A)] else [])) ∧
    (∀ r q, s.req? r = some q → q.phase = .out ∨ q.phase = .back → q.sentAt + 8000 ≤ s.clock →
      (q.tries < 4 → Runs (.evRequestResend r) s fun t => t.mem = s.mem ∧ ∃ p, t.req? r = some p ∧ p.phase = .out ∧
        p.seq = q.seq ∧ p.tries = q.tries + 1 ∧ p.sentAt = s.clock ∧ p.router = q.src / 32 ∧
        p.turns = ((s.stack (q.src / 32)).route (q.src / 32) (q.home)).toNat % 2 ^ 24) ∧
      (4 ≤ q.tries → Runs (.evRequestResend r) s fun t =>
        t.mem = s.mem ∧ t.req? r = some { q with phase := .unreachable })) ∧
    ∀ l n, l < 64 → neighbour (l / 4) (l % 4) = some n → Runs (.evMeshLinkDown l) s fun t =>
      tget false t.linksDown l = true ∧ tget false t.linksDown (4 * n + (l % 4 + 2) % 4) = true ∧
        (∀ j, j ≠ l → j ≠ 4 * n + (l % 4 + 2) % 4 → tget false t.linksDown j = tget false s.linksDown j) ∧
        t.out = s.out ++ [.linkDown l] ∧ t.mem = s.mem ∧
        ∀ r q, s.req? r = some q → q.moving = true → q.hops ≠ 0 → 4 * q.router + q.turns % 4 = l →
          ∃ p, t.req? r = some p ∧ p.lost = true

/-- A refusal reaches its core as a record and a pending delivery; a delivery at a boundary takes the imprecise trap of the
oldest recorded refusal, an interrupt the asynchronous one; a wait reaches its time-out (R59, R226, R361, R379, R385, R392 to
R394, R400). The bits 63:57 of the handler's address are the model's choice of log 63. -/
def Obligations.DeliveryEvents : Prop :=
  ∀ (s : State),
    (∀ r x y, s.refusals.find? (fun e => e.1 == r) = some (r, x) → (∃ k, (k, y) ∈ s.refusals ∧ k < r) → y.hart = x.hart →
      y.home = x.home → y.group = x.group → Runs (.evStoreFaultPost r) s fun t => t = s) ∧
    (∀ r x, s.refusals.find? (fun e => e.1 == r) = some (r, x) → x.live = true → refusedBefore s r x = false →
      Runs (.evStoreFaultPost r) s fun t =>
      let c := s.core (x.hart / 8)
      let full := decide (64 ≤ c.sfrq.length)
      (∀ e ∈ t.refusals, e.1 ≠ r) ∧ t.mem = s.mem ∧ (∀ k, k ≠ x.hart → t.hart k = s.hart k) ∧
        t.hart x.hart = { s.hart x.hart with
          pend := (s.hart x.hart).pend ++ [{ cause := x.cause, va := x.va, queued := !full }] } ∧
        (if full then (t.core (x.hart / 8)).sfrq = c.sfrq ∧
            tget 0 (t.core (x.hart / 8)).lost x.cid = tget 0 c.lost x.cid + 1
          else ∃ e, (t.core (x.hart / 8)).sfrq = c.sfrq ++ [e] ∧ e.va = x.va % 2 ^ 64 ∧ e.pa = x.pa % 2 ^ 48 ∧
            e.cid = x.cid ∧ e.elem = x.elem ∧ e.cause = x.cause ∧ e.dlv = false ∧ e.hart = x.hart % 8 ∧ e.ended = false)) ∧
    (∀ h cause tval, atBoundary s h = true → (s.hart h).open_ = true → (s.hart h).pend ≠ [] →
      let x := s.hart h
      (match x.pend.find? (·.queued) with
        | some p => cause = p.cause ∧ tval = wd p.va
        | none => x.pend.head?.map (·.cause) = some cause ∧ tval = 0) → handlerOf s h cause ≠ 0 →
      cause ≠ 0x11 → cause ≠ 0x12 →
      Runs (.evImpreciseDelivery h) s fun t =>
        let y := t.hart h
        y.pend = [] ∧ y.pc = handlerOf s h cause ∧ y.tcause = wd (2 ^ 62 + cause) ∧ y.tval = tval ∧
          y.tepc = wd (fld x.pc 0 57) ∧
          SavedStatus x y.tstat ∧ y.tidx = 0 ∧ SameRegs x y ∧ (∀ k, k ≠ h → t.hart k = s.hart k) ∧ t.mem = s.mem ∧
          ∀ e ∈ (t.core (h / 8)).sfrq, e.hart = h % 8 → e.cid = x.cid → e.ended = false →
            (∃ p ∈ x.pend, p.queued = true ∧ p.va % 2 ^ 64 = e.va ∧ p.cause = e.cause) → e.dlv = true) ∧
    (∀ h, atBoundary s h = true → (s.hart h).pend = [] → (s.hart h).open_ = true → fld (s.hart h).hstat 8 2 = 3 →
      handlerOf s h 0x20 ≠ 0 → Runs (.evInterrupt h) s fun t =>
        let x := s.hart h
        let y := t.hart h
        OnlyHart s t h ∧ y.pc = handlerOf s h 0x20 ∧ y.tcause = wd (2 ^ 63 + 0x20) ∧ y.tval = 0 ∧
          y.tepc = wd (fld x.pc 0 57) ∧
          SavedStatus x y.tstat ∧ y.tidx = 0 ∧ fld y.hstat 0 1 = 1 ∧ fld y.hstat 9 1 = 1 ∧ SameRegs x y) ∧
    (∀ h w i ns, (s.hart h).wait = some w → w.what = i → ns ≠ 0 → w.start + ns ≤ s.clock →
      let late := fun ev => Runs ev s fun t => OnlyHart s t h ∧
        t.hart h = { s.hart h with wait := some { w with expired := true } }
      (∀ d x, i = .vwait d x → ns = (match (s.hart h).vq with
          | [] => (s.hart h).rd x.c
          | e :: _ => rdS e.s x.c.val).toNat → late (.evVwaitTimeOut h)) ∧
      (∀ d off b a, i = .lldt d off b a → ns = fld (s.hart h).ltmo 0 32 → late (.evLldtTimeOut h)) ∧
      (∀ d a, i = .colwaitLayers d a ∨ i = .colwaitSeq d a → ns = fld (s.hart h).ltmo 0 32 → late (.evColwaitTimeOut h)))

/-- The CXL ports: training, link down and the end of its phases by stack; CXL.mem reads and writes of 64 bytes, held during
the wipe; a snoop that takes host memory back from the slices that hold it; and the answer to an unsupported request (R18,
R27, R32, R251, R253, R406, R407, R420, R422, R425). What a host's access to a hole or to poison answers (log 37) and which
slices hold host lines and lose them to a snoop (log 27) are the model's choices. -/
def Obligations.PortEvents : Prop :=
  ∀ (s : State),
    (∀ p, p < 8 → Runs (.evCxlLinkDown p) s fun t => { t with ports := s.ports, reqs := s.reqs } = s ∧
      (∀ j, j ≠ p → t.port j = s.port j) ∧
      t.port p = { s.port p with up := false, down := true, dropping := upto 0 16
                                 downWins := (if (s.port p).dropping = [] then [] else (s.port p).downWins) ++ (s.port p).windows } ∧
      ∀ r q, s.req? r = some q →
        ((∃ a, placeOf s.sdp q.acc.pa = .ext a ∧ servingPort s a = some p) → t.req? r = some { q with cut := true }) ∧
        (¬(∃ a, placeOf s.sdp q.acc.pa = .ext a ∧ servingPort s a = some p) → t.req? r = some q)) ∧
    (∀ p st, p < 8 → (s.port p).down = true → st ∈ (s.port p).dropping → reachOn s 2 2 (portStack p) st = .ok →
      Runs (.evLinkDownPhaseEnd p st) s fun t =>
      { t with ports := s.ports, ctxs := s.ctxs } = s ∧ (∀ j, j ≠ p → t.port j = s.port j) ∧
      (∀ k ∈ (t.port p).dropping, k ∈ (s.port p).dropping ∧ k ≠ st) ∧
      (∀ c e, e ∈ (t.ctx c).tlb ↔ e ∈ (s.ctx c).tlb ∧ ¬(e.stack = st ∧ e.ofPort (s.port p) = true)) ∧
      ((∀ k ∈ (s.port p).dropping, k = st) → (s.port p).enPending = true → (s.port p).up = true →
        (t.port p).down = false ∧ (t.port p).enPending = false ∧
          ∀ c, (s.ctx c).installed = true → (t.ctx c).vpt = vptLoad t (s.ctx c).vptb)) ∧
    (∀ p rate width, p < 8 → (s.port p).up = false → rate = 64 ∨ rate = 32 ∨ rate = 16 → width = 16 ∨ width = 8 ∨ width = 4 →
      Runs (.evCxlLinkTrained p rate width) s fun t => { t with ports := s.ports, ctxs := s.ctxs } = s ∧
        (∀ j, j ≠ p → t.port j = s.port j) ∧
        ((s.port p).enPending = false ∨ (s.port p).dropping ≠ [] →
          t.ctxs = s.ctxs ∧ t.port p = { s.port p with up := true, rate := rate, width := width }) ∧
        ((s.port p).enPending = true → (s.port p).dropping = [] →
          (t.port p).up = true ∧ (t.port p).down = false ∧ (t.port p).enPending = false)) ∧
    (∀ a, a < 0x020000000000 → a % 64 = 0 →
      (s.life = .ready → ∀ lin w, placeOf s.sdp a = .dram lin w → CleanDram s 0 0 lin 64 (b01 w) → hostWaits s a = false →
        computing s lin = none → withheld s.sdp lin = false →
        (Runs (.evCxlMemRead a) s fun t => t = { s with out := s.out ++ [.memData a (BitVec.ofNat 512 (s.natAt lin 64)) false] }) ∧
        ∀ d, Runs (.evCxlMemWrite a d) s fun t => StoredAt s t lin 64 d.toNat ∧ t.out = s.out ++ [.memAck a] ∧
          OnlyStored { s with out := t.out } t) ∧
      (s.life = .ready → placeOf s.sdp a = .hole → Runs (.evCxlMemRead a) s fun t =>
        ∃ d, t = { s with out := s.out ++ [.memData a d true] }) ∧
      (s.life = .wipe →
        (Runs (.evCxlMemRead a) s fun t => t = { s with held := s.held ++ [{ addr := a, data := none }] }) ∧
        ∀ d, Runs (.evCxlMemWrite a d) s fun t => t = { s with held := s.held ++ [{ addr := a, data := some d }] })) ∧
    (∀ a d, s.life = .ready → a % 64 = 0 → 0x040000000000 ≤ a → a < 0x1000000000000 → extHost s a = true →
      Runs (.evCxlCacheSnoop a d) s fun t =>
        ((∃ e ∈ s.hostLines, e.1 / 16 = a / 128) → t.out = s.out ++ [.snoopData a (BitVec.ofNat 512 (s.natAt a 64))]) ∧
        ((∀ e ∈ s.hostLines, e.1 / 16 ≠ a / 128) → t.out = s.out) ∧
        (∀ e ∈ t.hostLines, e.1 / 16 ≠ a / 128) ∧ (∀ e ∈ s.hostLines, e.1 / 16 ≠ a / 128 → e ∈ t.hostLines) ∧
        { t with mem := s.mem, poison := s.poison, lost := s.lost, out := s.out, hostLines := s.hostLines } = s ∧
        match d with
        | none => t.mem = s.mem
        | some v => StoredAt s t a 64 v.toNat) ∧
    ∀ p, p < 8 → (s.life ≠ .failed → Runs (.evUnsupportedRequest p) s fun t => t = { s with out := s.out ++ [.unsupported p] }) ∧
      (s.life = .failed → Runs (.evUnsupportedRequest p) s fun t => t = s)

/-- The node scheduler: a ring record is read and its graph accepted, or its queue stopped with the record's address; a band
node that fits starts on free harts; a waiting node ages; a graph completes with its record; the watchdog and a
held removal remove their context, a removal waiting while a debug halt holds a hart of it (R41, R48 to R57, R71, R246, R398,
R399, R403, R411 to R415). The model's choices are: that a band takes the lowest of the free harts (log 108), that every scalar
register of a placed hart is 0 (log 5), that ageing books 2 ms (log 41), when a graph is complete and where its record
goes (log 44), when a held removal acts (log 45), and the bits 63:57 of EXITV's address (log 63). -/
def Obligations.SchedulerEvents : Prop :=
  ∀ (s : State),
    (∀ st q (lin : Nat → Nat), s.life = .ready → st < 16 → q < 16 →
      let k := (s.stack st).queue q
      let pa := k.qbase.toNat + k.head % 2 ^ k.logn * 4096
      let r := (upto 0 16).foldr (fun i x => s.natAt (lin i) 256 + 2 ^ 2048 * x) 0
      k.st = .active → k.tail ≠ k.head → (s.ctx k.cid).installed = true → liveGraphs s st q < 256 → pa % 4096 = 0 →
      (∀ i, i < 16 → ∃ w, placeOf s.sdp (pa + 256 * i) = .dram (lin i) w ∧ withheld s.sdp (lin i) = false ∧
        reach s st (linStack (lin i)) = .ok ∧ CleanDram s k.cid 0 (lin i) 256 (b01 w)) →
      Runs (.evRingRecordRead st q) s fun t =>
        let y := (t.stack st).queue q
        t.mem = s.mem ∧ t.harts = s.harts ∧ (recordOk r = true → placeWaits s k.cid st r = true → t = s) ∧
        (recordOk r = false ∨ placeWaits s k.cid st r = false → y.head = (k.head + 1) % 65536) ∧
        (recordOk r = true → placeWaits s k.cid st r = false → y.st = .active ∧ y.gseq = (k.gseq + 1) % 65536 ∧
          ∃ g, t.graph? s.fresh = some g ∧ g.stack = st ∧ g.queue = q ∧ g.seq = (k.gseq + 1) % 65536 ∧ g.cid = k.cid ∧
            g.complete = false ∧ g.nodes.length = r / 2 ^ 24 % 256) ∧
        (recordOk r = false → y.st = .disabled ∧ y.qerr = wd (2 ^ 63 + pa % 2 ^ 48) ∧ t.graphs = s.graphs)) ∧
    (∀ st n x g, s.life = .ready → st < 16 → readyPool s st = [(n, x)] → s.node? n = some x → x.st = .ready →
      x.kind = .band → x.band = none → s.graph? x.graph = some g → bandFits s n x = true → olderFirst s n = false →
      vptLocked s x.cid = false → (∀ e ∈ s.bands, e.2.stack = st → e.2.incoming = none) → s.winParts = [] → s.arriving = [] →
      Runs (.evDispatch st) s fun t =>
        (∃ y, t.node? n = some y ∧ y.st = .running ∧ y.band = some s.fresh) ∧ t.mem = s.mem ∧
        (t.ctx x.cid).vpt = vptLoad s (s.ctx x.cid).vptb ∧
        ∀ i m, i < x.harts.length → m < x.harts.getD i 0 →
          let y := t.hart ((freeHarts s (x.stack * 4 + i)).getD m 0)
          y.live = true ∧ y.cid = x.cid ∧ y.pc = x.pc ∧ y.band = s.fresh ∧ y.cur = (x.reqs.getD i []).getD m 0 ∧
            y.req = y.cur ∧ (∀ j, y.rd j = 0) ∧ y.level = .n) ∧
    (∀ n x, s.node? n = some x → x.st = .ready → 2 ≤ x.prio → x.readyAt + 2000000 ≤ s.clock →
      Runs (.evNodeAgingStep n) s fun t =>
        t.node? n = some { x with readyAt := x.readyAt + 2000000, waited := x.waited + 2000000 } ∧
        { t with nodes := s.nodes } = s) ∧
    (∀ gi g l, s.graph? gi = some g → s.life = .ready → graphReady s g = true → g.flush = some l → flushed s l = true →
      (g.compl = 0 → Runs (.evGraphCompletion gi) s fun t =>
        t.graph? gi = some { g with complete := true } ∧ t.mem = s.mem) ∧
      (∀ a acc w e, g.compl ≠ 0 → g.compl.toNat % 32 = 0 →
        let rq : Rq := { cid := g.cid, stack := g.stack, lvl := .n, who := 640 }
        resolve s rq .engine .write g.compl 32 = (.ok (acc, .dram a w), e) → acc.ub = false → acc.lt = 0 →
        reach s g.stack (linStack a) = .ok → CleanDram s g.cid acc.key a 32 (b01 w) →
        Runs (.evGraphCompletion gi) s fun t =>
          t.graph? gi = some { g with complete := true } ∧ StoredAt s t a 32 (complWord s g) ∧
          complWord s g / 2 ^ 63 % 2 = 1 ∧ complWord s g / 2 ^ 16 % 2 ^ 16 = g.seq % 2 ^ 16 ∧
          complWord s g % 2 ^ 16 = g.exit.getD 0 % 2 ^ 16 ∧
          complWord s g / 2 ^ 62 % 2 = (if (nodesIn s g .failed).isEmpty then 0 else 1))) ∧
    (∀ bd b, s.band? bd = some b → b.phase = .running → (s.ctx b.cid).installed = true → (s.stack b.stack).halted = false →
      Leaves s b.cid →
      (∀ h ∈ bandLive s bd b, (s.hart h).retiredAt +
        (if (s.ctx b.cid).wdog = 0 then 100000 else (s.ctx b.cid).wdog) * 1000 ≤ s.clock) →
      Runs (.evHangWatchdog bd) s fun t => RemovedFrom s t b.cid 0x31 0) ∧
    (∀ bd b cid, s.band? bd = some b → b.phase = .running → b.cid = cid → (s.ctx cid).installed = true →
      (s.ctx cid).removing = none → (s.stack b.stack).halted = false →
      (∀ h ∈ bandLive s bd b, (s.hart h).retiredAt +
        (if (s.ctx cid).wdog = 0 then 100000 else (s.ctx cid).wdog) * 1000 ≤ s.clock) →
      (∃ h ∈ s.ctxHarts cid, (s.stack (h / 32)).halted = true) → Runs (.evHangWatchdog bd) s fun t =>
        (t.ctx cid).removing = some (0x31, 0) ∧ { t with ctxs := s.ctxs } = s) ∧
    ∀ cid, s.life = .ready → s.mbstat = 1 → s.mbcmd = 0x02 → s.arg 0 = cid → (s.ctx cid).installed = true → Leaves s cid →
      Runs (.evFatalRemoval cid) s fun t => RemovedFrom s t cid 0x34 0 ∧ t.mbstat = 2

/-- Pre-emption: the reclaim deadline starts it, unless its context is under removal, the drain deadline stops a queue at an
element, a marker returns and the last one begins the save, the save frees the harts into their slots with what their
streams had fetched discarded, and the restore ends with the band running, its slots free and its pending deliveries due
first (R42, R50, R66, R67, R69, R70, R224, R394, R396, R397, R404). When a marker returns, what the slots hold at
SLOT_SAVE_COMPLETE and the deliveries owed after a restore are the model's choices of log 40. -/
def Obligations.PreemptionEvents : Prop :=
  ∀ (s : State) (bd : Nat) (b : Band), s.band? bd = some b →
    (∀ t0, b.reclaimAt = some t0 → b.phase = .running → t0 + 2000 ≤ s.clock → reclaimDone s b bd = false →
      (s.stack b.stack).halted = false →
      ((s.ctx b.cid).installed = false ∨ (s.ctx b.cid).removing ≠ none → Runs (.evLaneReclaimDeadline bd) s fun t => t = s) ∧
      ((s.ctx b.cid).installed = true → (s.ctx b.cid).removing = none → Runs (.evLaneReclaimDeadline bd) s fun t => t.mem = s.mem ∧
        ∃ y, t.band? bd = some y ∧ y.phase = .stopping ∧ y.reserved = b.crews.length ∧ y.preemptAt = s.clock ∧
          ∀ h ∈ bandLive s bd b, markerOf h ∈ y.markers)) ∧
    (∀ h el, (s.hart h).band = bd → b.phase = .stopping → markerOf h ∈ b.markers → (s.hart h).live = true →
      (s.hart h).vq ≠ [] → (s.hart h).level ≠ .m → h ∉ b.drained → b.preemptAt + 1000 ≤ s.clock → s.cutAt = none →
      Runs (.evDrainDeadline h el) s fun t => t.cutAt = some (h, el) ∧ t.agent = .queue h ∧
        t.band? bd = some { b with drained := h :: b.drained } ∧
        { t with bands := s.bands, agent := s.agent, cutAt := none } = s) ∧
    (∀ m, b.phase = .stopping → m ∈ b.markers → markerDue s b m = true → (s.stack b.stack).halted = false →
      (∀ w ∈ s.winParts, w.who ≠ markerWho b m) → Runs (.evQuiesceMarkerReturn bd m) s fun t =>
        t.mem = s.mem ∧ ∃ y, t.band? bd = some y ∧
        y.markers = b.markers.filter (fun k => k != m) ∧
        (y.markers ≠ [] → y.phase = .stopping ∧ y.slots = b.slots) ∧
        (y.markers = [] → y.phase = .saving ∧ y.reserved = 0 ∧
          (b.crews.length ≤ (pickSlots s b.stack 14).length → y.slots.length = b.crews.length) ∧
          ∀ k ∈ y.slots, k < 14 ∧ ∀ e ∈ s.bands, e.2.stack = b.stack → k ∉ e.2.slots)) ∧
    (∀ n, b.phase = .saving → s.node? b.node = some n → b.slots.Nodup → b.slots.length = b.crews.length →
      b.incoming = none → s.winParts = [] →
      Runs (.evSlotSaveComplete bd) s fun t => t.mem = s.mem ∧
        (∃ y, t.band? bd = some y ∧ y.phase = .suspended ∧ y.slots = b.slots) ∧
        t.node? b.node = some { n with st := .ready, readyAt := s.clock, waited := 0 } ∧
        ∀ i, i < b.crews.length →
          (∃ k, (t.stack b.stack).slots.find? (fun e => e.1 == b.slots.getD i 0) = some (b.slots.getD i 0, k) ∧ k.band = bd ∧
            k.harts = (victimHarts s bd b i).map (fun h => (h, { s.hart h with
              wait := none, streams := (s.hart h).streams.map (fun e => (e.1, { e.2 with fetched := [] })) }))) ∧
          ∀ h ∈ victimHarts s bd b i, (t.hart h).live = false) ∧
    (b.phase = .restoring → Runs (.evSlotRestoreComplete bd) s fun t =>
      t.band? bd = some { b with phase := .running, slots := [] } ∧ t.mem = s.mem ∧
        (∀ h ∈ bandLive s bd b, t.hart h =
          { s.hart h with owed := (s.hart h).open_ && !(s.hart h).pend.isEmpty }) ∧
        (∀ h, h ∉ bandLive s bd b → t.hart h = s.hart h) ∧ t.stks = s.stks)

/-- The Veld sequencer and the layers: an operation starts with its rows locked or fails validation; words are broadcast,
the clearing steps first and then those of the program with every row field advanced; a layer's step, while the locks have
not been held for 10 ms, moves, shifts or votes on rows under the write mask, loads the mask, or moves a row between layers;
a row goes through the base die; refreshes fall due and wait for their gap; a gap serves one access, which waits for it; the
operation completes or its lock times out; a VRLOCK entry times out (R318, R320 to R323, R331, R335 to R339, R341, R344).
Which layer's steps, which bank's refreshes and which gap accesses count towards T is the model's choice of log 55. -/
def Obligations.VeldEvents : Prop :=
  ∀ (s : State) (st : Nat),
    let v := (s.stack st).veld
    (∀ q o, stackRuns s st = true → v.run = none → nextQueue v = some (q, o) →
      (o.isLaunch = false ∨ (∃ prog, validate s st o = .ok prog) → Runs (.evVeldOperationStart st) s fun t =>
        ∃ r, (t.stack st).veld.run = some r ∧ r.q = q ∧ r.op = o ∧ r.start = s.clock ∧ (t.stack st).veld.lastQ = q ∧
          t.mem = s.mem ∧ ∀ l, l < 16 → o.lmask.testBit l = true → ((t.stack st).layer l).fifo = [] ∧
            ((t.stack st).layer l).st ≠ .asleep) ∧
      (∀ i, o.isLaunch = true → validate s st o = .error i → o.node = none → Runs (.evVeldOperationStart st) s fun t =>
        (t.stack st).veld.run = none ∧ t.mem = s.mem ∧
        ((t.stack st).veld.queue q).err =
          some { fword := faultWord 0x0D 2 i, va := o.va, pc := wd (o.mcoff + i) } ∧
        (t.tl (tlKey o.cid o.core 2)).err = ((t.stack st).veld.queue q).err)) ∧
    (∀ r, v.run = some r → stackRuns s st = true → allCurrent (s.stack st) r.op.lmask = true →
      (fld (s.stack st).colalloc 0 7 ≠ 0 → r.op.isLaunch = true → r.clear = 8 → r.sent = false →
        (∀ l, l < 16 → r.op.lmask.testBit l = true → ((s.stack st).layer l).fifo = []) →
        Runs (.evVeldBroadcast st) s fun t => t.mem = s.mem ∧
          (∃ y, (t.stack st).veld.run = some y ∧ y.clear = 0 ∧ y.count = r.count + 8 ∧ y.ix = r.ix) ∧
          ∀ l, l < 16 → r.op.lmask.testBit l = true → ((t.stack st).layer l).fifo.map (fun w => (w.kind, w.dst, w.src)) =
            [1008, 1009, 1010, 1011, 1012, 1014, 1019, 1020].map (fun row => (1, row, 1016))) ∧
      (fld (s.stack st).colalloc 0 7 ≠ 0 → r.op.isLaunch = true → r.clear = 0 → Runs (.evVeldBroadcast st) s fun t =>
        t.mem = s.mem ∧ ∃ y l, (t.stack st).veld.run = some y ∧ SendsAll r l y ∧ l.length ≤ 8 ∧
          (∀ k, k < 16 → ((t.stack st).layer k).fifo =
            ((s.stack st).layer k).fifo ++ if r.op.lmask.testBit k then l else []) ∧
          (l.length = 8 ∨ y.sent = true ∨ y.prog[y.ix]? = none ∨
            ∃ k, k < 16 ∧ r.op.lmask.testBit k = true ∧ 64 ≤ ((t.stack st).layer k).fifo.length)) ∧
      (∀ p, r.op.isLaunch = false → r.op.rows[r.rowIx]? = some p → rowPath r.op p = 0 → r.count = r.rowIx → NoRefresh s st →
        heldOut s r = false → p.2 % 1024 < 1008 → PlainRow s (p.2 * 1024) → Runs (.evBaseDieRowBufferTransfer st) s fun t =>
          (∀ i, i < 1024 → t.byteAt (p.1 * 1024 + i) = s.byteAt (p.2 * 1024 + i)) ∧
          (∀ a, (a < p.1 * 1024 ∨ p.1 * 1024 + 1024 ≤ a) → t.byteAt a = s.byteAt a) ∧
          (t.stack st).veld.run = some { r with rowIx := r.rowIx + 1, count := r.count + 1 })) ∧
    (∀ r layer w, v.run = some r → stackRuns s st = true → heldOut s r = false → layer < 16 → r.op.isLaunch = true →
      ((s.stack st).layer layer).fifo.head? = some w → NoRefresh s st →
      (w.kind = 1 ∨ w.kind = 2 ∨ w.kind = 3 ∨ w.kind = 4 ∨ w.kind = 7 → r.op.subs.Nodup → w.dst < 1021 → w.dst ≠ 1016 →
        w.dst ≠ 1017 → w.src < 1021 →
        (w.kind = 7 → w.mod < 256 ∧ w.mod / 16 ≠ w.mod % 16 ∧ (layer = w.mod / 16 ∨ layer = w.mod % 16) ∧
          ∀ l, l = w.mod / 16 ∨ l = w.mod % 16 →
            ∃ x, ((s.stack st).layer l).fifo.head? = some x ∧ x.kind = 7 ∧ x.ix = w.ix) →
        let us := r.op.inLayer (if w.kind = 7 then w.mod % 16 else layer)
        (∀ u ∈ us, RowsReady s r w u) → Runs (.evVeldStep st layer) s fun t =>
          (∀ u ∈ us, RowWritten s t r w u) ∧
          (∀ a, (∀ u ∈ us, ¬inCells u w.dst a ∧ (w.kind = 2 → ∀ k, k < 3 → ¬inCells u (1008 + k) a)) →
            t.byteAt a = s.byteAt a) ∧
          LayersPast s t st (fun l => l == layer || (w.kind == 7 && (l == w.mod / 16 || l == w.mod % 16)))) ∧
      (w.kind = 5 ∨ w.kind = 6 ∨ w.kind = 8 ∨ w.kind = 9 ∨ w.kind = 15 →
        (w.kind = 5 → ∀ u ∈ r.op.inLayer layer, CellRow s (cellsOf u 1018)) → Runs (.evVeldStep st layer) s fun t =>
          t.mem = s.mem ∧ LayersPast s t st (fun l => l == layer) ∧ ∃ y, (t.stack st).veld.run = some y ∧
            (w.kind = 5 → ∀ u ∈ r.op.inLayer layer, ∀ j, j < 8192 →
              (tget (2 ^ 8192 - 1) y.wmask u).testBit j = rowBit s (cellsOf u 1018) j) ∧
            (w.kind = 6 → ∀ u ∈ r.op.inLayer layer, tget (2 ^ 8192 - 1) y.wmask u = 2 ^ 8192 - 1) ∧
            ∀ u, u ∉ r.op.inLayer layer ∨ 8 ≤ w.kind → tget (2 ^ 8192 - 1) y.wmask u = tget (2 ^ 8192 - 1) r.wmask u) ∧
      (w.kind = 7 → layer ≠ w.mod / 16 → layer ≠ w.mod % 16 → Runs (.evVeldStep st layer) s fun t => t.mem = s.mem ∧
        ∀ l, l < 16 → (t.stack st).layer l =
          let x := (s.stack st).layer l
          if l = layer then { x with fifo := x.fifo.tail } else x)) ∧
    (∀ r layer w, v.run = some r → stackRuns s st = true → heldOut s r = false → layer < 16 → r.op.isLaunch = true →
      ((s.stack st).layer layer).fifo.head? = some w → w.kind = 1 → w.dst < 1008 → w.src < 1008 → NoRefresh s st →
      (∀ u ∈ r.op.inLayer layer, tget (2 ^ 8192 - 1) r.wmask u = 2 ^ 8192 - 1 ∧ PlainRow s (u * 2 ^ 20 + w.src * 1024)) →
      Runs (.evVeldStep st layer) s fun t =>
        (∀ u ∈ r.op.inLayer layer, ∀ i, i < 1024 →
          t.byteAt (u * 2 ^ 20 + w.dst * 1024 + i) = s.byteAt (u * 2 ^ 20 + w.src * 1024 + i)) ∧
        (∀ a, (∀ u ∈ r.op.inLayer layer, a < u * 2 ^ 20 + w.dst * 1024 ∨ u * 2 ^ 20 + w.dst * 1024 + 1024 ≤ a) →
          t.byteAt a = s.byteAt a) ∧
        ((t.stack st).layer layer).fifo = ((s.stack st).layer layer).fifo.tail ∧
        ((t.stack st).layer layer).steps = ((s.stack st).layer layer).steps + 1) ∧
    (∀ r n layer bank, gapAt s st layer bank = some (r, n) →
      let lb := layer * 64 + bank
      let due := dueAt r (1024 * st + lb) (tget 0 r.refresh lb)
      let last := dueAt r (1024 * st + lb) (tget 0 r.refresh lb + 1)
      let rpt := ∃ w ∈ r.prog, mvKind w = 9
      let takes := fun (a : GapAsk) => a.bank = lb ∧ a.got = false ∧
        (v.balanced = true ∨ tget 0 r.kinds layer ≠ 0 ∨ a.since + 64 ≤ n)
      (tget 0 r.refreshed lb ≠ n → due ≤ s.time → ¬rpt ∨ tget 0 r.kinds layer = 9 ∨ last ≤ s.time →
        Runs (.evBankRefresh st layer bank) s fun t => ∃ y, OnlyRun s t st y ∧
          tget 0 y.refresh lb = tget 0 r.refresh lb + 1 ∧ tget 0 y.refreshed lb = n ∧
          { y with refresh := r.refresh, refreshed := r.refreshed } = r) ∧
      (tget 0 r.refreshed lb = n ∨ s.time < due ∨ (rpt ∧ tget 0 r.kinds layer ≠ 9 ∧ s.time < last) →
        Runs (.evBankRefresh st layer bank) s fun t => t = s) ∧
      (tget 0 r.served lb = n ∨ (∀ a ∈ r.asks, ¬takes a) → Runs (.evGapAccess st layer bank) s fun t => t = s) ∧
      (∀ a pre post, tget 0 r.served lb ≠ n → r.asks = pre ++ a :: post → takes a → (∀ b ∈ pre, ¬takes b) →
        (Runs (.evGapAccess st layer bank) s fun t => ∃ y, OnlyRun s t st y ∧
          tget 0 y.gaps lb = tget 0 r.gaps lb + 1 ∧ (∀ j, j ≠ lb → tget 0 y.gaps j = tget 0 r.gaps j) ∧
          tget 0 y.served lb = n ∧ y.asks = r.asks.map (fun b => if b = a then { b with got := true } else b) ∧
          { y with gaps := r.gaps, served := r.served, asks := r.asks } = r) ∧
        ∀ w, ((s.stack st).layer layer).fifo.head? = some w → w.kind ≠ 7 → Runs (.evVeldStep st layer) s fun t => t = s)) ∧
    (∀ a lin w, s.life = .ready → a < 0x020000000000 → a % 64 = 0 → placeOf s.sdp a = .dram lin w → linStack lin = st →
      ∀ r lb n, computing s lin = some (r, lb, n) →
        (gapShut s 640 lin = true → Runs (.evCxlMemRead a) s fun t => ∃ y, OnlyRun s t st y ∧
          y.asks = r.asks ++ (if r.asks.any (fun b => b.who = 640 && b.row = lin / 1024) then []
            else [{ bank := lb, since := n, who := 640, row := lin / 1024, got := false }]) ∧
          { y with asks := r.asks } = r) ∧
        (hostWaits s a = false → Runs (.evCxlMemRead a) s fun t => ∃ y, (t.stack st).veld.run = some y ∧
          y.asks = r.asks.filter (fun b => !(b.who = 640 && b.row = lin / 1024)) ∧ { y with asks := r.asks } = r)) ∧
    (∀ r, v.run = some r → stackRuns s st = true →
      (runOver (s.stack st) r = true → heldOut s r = false → allCurrent (s.stack st) r.op.lmask = true → r.op.node = none →
        Runs (.evVeldOperationComplete st) s fun t => (t.stack st).veld.run = none ∧ t.mem = s.mem ∧
          ((t.stack st).veld.queue r.q).ops = (v.queue r.q).ops.tail ∧
          (let T := ((t.stack st).veld.queue r.q).lastT
           (r.op.isLaunch = true → ∃ x, GapNs r (upto (64 * r.last) 64) x ∧ T = 48 * ((s.stack st).layer r.last).steps + x) ∧
           (r.op.isLaunch = false → ∃ x, GapNs r (upto 0 1024) x ∧ T = sumOf (r.op.rows.map (fun p =>
             if r.op.kind ≠ .zero ∧ p.1 / 1024 % 4096 ≠ p.2 / 1024 % 4096 then 112 else 48)) + x)) ∧
          CountedOn (t.tl (tlKey r.op.cid r.op.core 2)) r.op.num) ∧
      (r.start + 10000000 ≤ s.clock → r.op.node = none → Runs (.evLockTimeOut st) s fun t =>
        (t.stack st).veld.run = none ∧ t.mem = s.mem ∧
          ∃ e, ((t.stack st).veld.queue r.q).err = some e ∧ fld e.fword 40 8 = 0x0E ∧ fld e.fword 38 2 = 2 ∧
            (t.tl (tlKey r.op.cid r.op.core 2)).err = some e)) ∧
    ∀ ent l, v.locks.find? (fun e => e.1 == ent) = some (ent, l) → l.start + 10000000 ≤ s.clock →
      Runs (.evVrlockTimeOut st ent) s fun t => (∀ e ∈ (t.stack st).veld.locks, e.1 ≠ ent) ∧ t.mem = s.mem ∧
        ((s.hart l.hart).live = true → (s.hart l.hart).band = l.band →
          t.hart l.hart = { s.hart l.hart with lockTraps := (s.hart l.hart).lockTraps ++ [ent] })

/-- The copy engine moves the next granule of a COPY, or the next tile of a COPYX between lanes and bit planes, and passes it;
the stream unit fetches the elements of a strip (R221 to R223, R292, R295 to R297, R301, R302). -/
def Obligations.EngineEvents : Prop :=
  ∀ (s : State),
    (∀ core x rest y src dst n addr dest, CopyAt s core x rest → x.x = false → descOk x.body = true → x.isOver = false →
      y = x.norm → granOf y = (src, dst, n) → EngineBytes s (copyRq core x) .read src n addr →
      EngineBytes s (copyRq core x) .write dst n dest → Runs (.evCopyGranule core) s fun t =>
        (∀ i, i < n → t.byteAt (dest (dst + wd i)) = s.byteAt (addr (src + wd i))) ∧
        (∀ a, (∀ i, i < n → a ≠ dest (dst + wd i)) → t.byteAt a = s.byteAt a) ∧
        CopyPassed t core { y with gran := y.gran + 1, boff := y.boff + n } rest) ∧
    (∀ core x rest addr row0, CopyAt s core x rest → x.x = true → x.isOver = false → TilePlaced x →
      PlaneRows s core x row0 →
      let hv := (tileHoriz x).1
      let nk := (tileHoriz x).2
      let eb := x.sew / 8
      let lanes := row0 - linRow row0 * 1024 + 1018 * 1024
      (x.dir = false → EngineBytes s (copyRq core x) .read hv (nk * eb) addr → Runs (.evCopyxTile core) s fun t =>
        (∀ b j, b ≤ x.wm1 → j < 512 → rowBit t (row0 + 1024 * b) j =
          (decide (j < nk) && (rangeVal s addr (hv + wd (j * eb)) eb).testBit b)) ∧
        (∀ j, j < 512 → rowBit t lanes j = decide (j < nk)) ∧
        (∀ a, (∀ b, b ≤ x.wm1 → a < row0 + 1024 * b ∨ row0 + 1024 * b + 64 ≤ a) → a < lanes ∨ lanes + 64 ≤ a →
          t.byteAt a = s.byteAt a) ∧
        CopyPassed t core { x with gran := x.gran + 1 } rest) ∧
      (x.dir = true → EngineBytes s (copyRq core x) .write hv (nk * eb) addr → Runs (.evCopyxTile core) s fun t =>
        (∀ j, j < nk → leNat ((upto 0 eb).map (fun i => t.byteAt (addr (hv + wd (j * eb + i))))) =
          let val := (upto 0 (x.wm1 + 1)).foldl (fun m b => if rowBit s (row0 + 1024 * b) j then m + 2 ^ b else m) 0
          lowBits x.sew (if x.sx then sInt (x.wm1 + 1) val else val)) ∧
        (∀ a, (∀ i, i < nk * eb → a ≠ addr (hv + wd i)) → t.byteAt a = s.byteAt a) ∧
        CopyPassed t core { x with gran := x.gran + 1 } rest)) ∧
    ∀ h grp st addr, (s.hart h).streams.find? (fun e => e.1 == grp) = some (grp, st) → hartRuns s h = true →
      sptWaits s h = false →
      let n := min ((s.hart h).cur * 512 * 2 ^ st.lm / 2 ^ st.sew) (st.len - st.cursor)
      (∀ i, st.cursor ≤ i → i < st.cursor + n → (st.unit i).1.toNat % (if fmtWhole st.fmt then (st.unit i).2 else 1) = 0 ∧
        PlainRange { s with agent := .queue h } (rqOf s h) .read (st.unit i).1 (st.unit i).2 addr) →
      Runs (.evStreamRefill h grp) s fun t => t.mem = s.mem ∧ t.agent = s.agent ∧ (∀ k, k ≠ h → t.hart k = s.hart k) ∧
        ∃ y, (t.hart h).streams.find? (fun e => e.1 == grp) = some (grp, y) ∧ { y with fetched := st.fetched } = st ∧
          ∀ i, st.cursor ≤ i → i < st.cursor + n → y.fetched.find? (fun e => e.1 == i) =
            match st.fetched.find? (fun e => e.1 == i) with
            | some e => some e
            | none => some (i, { bits := rangeVal s addr (st.unit i).1 (st.unit i).2, fault := none })

/-- The exchange and the Col: a round sends every line with a count to its partners and lowers the count, and at the round at
which a written XSCHED takes effect r_B and B move and a new MODE gives every count its K; a line is read cell by cell and
joined cell by cell (in which order, and when after the start of the round, is the model's free choice of log 81); an entry is
broadcast, replayed or a layer resynchronised to the mirror of the base die; a frame brings COLALLOC into force; a layer is
powered (R350, R354 to R357, R372 to R377). -/
def Obligations.ExchangeAndColEvents : Prop :=
  ∀ (s : State),
    (s.xlines = [] → s.roundTime + (s.round - s.roundBase) * periodOf s.xschedNow ≤ s.time ∨ forcedRounds s = true →
      s.xsched = s.xschedNow → (s.ttl.map (·.1)).Nodup → Runs .evExchangeRound s fun t =>
        t.round = s.round + 1 ∧ t.mem = s.mem ∧
        (∀ e ∈ s.ttl, ∀ p ∈ partners (fld s.xschedNow 0 2) (e.1 * 128 / 2 ^ 36) s.round,
          ∃ x ∈ t.xlines, x.2.line = p * 2 ^ 29 + e.1 % 2 ^ 29 ∧ x.2.src = e.1 ∧ x.2.lt = e.2.2.1 ∧ x.2.data = 0 ∧
            ∀ k, k < 128 / cellBytes e.2.2.1 → k ∈ x.2.unread ∧ k ∈ x.2.unjoined) ∧
        ∀ e ∈ s.ttl, t.ttl.find? (fun f => f.1 == e.1) = if e.2.1 = 1 then none else some (e.1, (e.2.1 - 1, e.2.2))) ∧
    (s.xlines = [] → s.roundTime + (s.round - s.roundBase) * periodOf s.xschedNow ≤ s.time ∨ forcedRounds s = true →
      s.xsched ≠ s.xschedNow → (s.ttl.map (·.1)).Nodup → (∀ e ∈ s.ttl, 0 < e.2.1) → Runs .evExchangeRound s fun t =>
        t.round = s.round + 1 ∧ t.mem = s.mem ∧ t.xschedNow = s.xsched ∧ t.roundBase = s.round ∧ t.roundTime = s.time ∧
        ∀ e ∈ s.ttl,
          (∀ p ∈ partners (fld s.xsched 0 2) (e.1 * 128 / 2 ^ 36) s.round,
            ∃ x ∈ t.xlines, x.2.line = p * 2 ^ 29 + e.1 % 2 ^ 29 ∧ x.2.src = e.1 ∧ x.2.lt = e.2.2.1) ∧
          let k := if fld s.xsched 0 2 = fld s.xschedNow 0 2 then e.2.1 else modeK (fld s.xsched 0 2)
          t.ttl.find? (fun f => f.1 == e.1) = if k = 1 then none else some (e.1, (k - 1, e.2.2))) ∧
    (s.xlines ≠ [] → s.round ≠ 0 → (∀ e ∈ s.ttl, e.1 ∈ s.xsent) → Runs .evExchangeRound s fun t => t = s) ∧
    (∀ i x, s.xlines.find? (fun e => e.1 == i) = some (i, x) →
      let a := x.line * 128
      let u := unitBytes x.lt
      let src := x.src * 128 / 2 ^ 36
      let dst := a / 2 ^ 36
      let c := cellBytes x.lt
      (∀ d, 1 ≤ x.lt → x.lt ≤ 10 → x.unread ≠ [] → (∀ k ∈ x.unread, k < 128 / c) →
        (∀ p, p < 8 → tget 0 s.softErr (8 * x.src + p) = 0) → Runs (.evExchangeLineReceive i d) s fun t =>
          t.mem = s.mem ∧ t.ttl = s.ttl ∧ ∃ y l, t.xlines.find? (fun e => e.1 == i) = some (i, y) ∧ l ≠ [] ∧ l.Nodup ∧
            (∀ k ∈ l, k ∈ x.unread) ∧ y.unread = x.unread.filter (fun k => !l.contains k) ∧
            y.data = x.data + (l.map (fun k => s.natAt (x.src * 128 + k * c) c * 2 ^ (8 * c * k))).sum ∧
            y.entry = (if y.unread = [] then ((s.stack src).route src dst).toNat else x.entry) ∧
            y.stamp = (if y.unread = [] then s.fresh else x.stamp) ∧
            { y with data := x.data, unread := x.unread, bad := x.bad, opens := x.opens, entry := x.entry, stamp := x.stamp } = x) ∧
      (1 ≤ x.lt → x.lt ≤ 10 → x.unread = [] → x.unjoined ≠ [] → (∀ k ∈ x.unjoined, k < 128 / c) →
        x.way s = .arrived dst → lineBehind s x = false → x.opens = [] →
        (∀ p, p < 8 → tget 0 s.softErr (8 * x.line + p) = 0 ∧ s.isLost (8 * x.line + p) = false) →
        Runs (.evExchangeLineReceive i true) s fun t => ∃ l, l ≠ [] ∧ l.Nodup ∧ (∀ k ∈ l, k ∈ x.unjoined) ∧
          (if x.unjoined.all l.contains then ∀ y ∈ t.xlines, y.1 ≠ i
            else t.xlines.find? (fun y => y.1 == i) =
              some (i, { x with unjoined := x.unjoined.filter (fun k => !l.contains k) })) ∧
          (∀ k ∈ l, ∀ j, j < c / u → t.natAt (a + k * c + u * j) u =
            latJoin x.lt (s.natAt (a + k * c + u * j) u) (x.data / 2 ^ (8 * (k * c + u * j)) % 2 ^ (8 * u))) ∧
          (∀ b, (∀ k ∈ l, b < a + k * c ∨ a + k * c + c ≤ b) → t.byteAt b = s.byteAt b) ∧
          (t.natAt a 128 ≠ s.natAt a 128 →
            t.ttl.find? (fun e => e.1 == x.line) = some (x.line, (modeK (fld s.xschedNow 0 2), x.lt, x.cid))) ∧
          (t.natAt a 128 = s.natAt a 128 → t.ttl = s.ttl)) ∧
      (x.unread = [] → x.way s = .lost ∨ (∃ r, x.way s = .error r) → Runs (.evExchangeLineReceive i false) s fun t =>
        (∀ e ∈ t.xlines, e.1 ≠ i) ∧ t.mem = s.mem ∧ ∃ k, x.ttl ≤ k ∧
          t.ttl.find? (fun e => e.1 == x.src) = some (x.src, (k, x.lt, x.cid)))) ∧
    (∀ st e l, (s.stack st).colQ = e :: l → fld (s.stack st).colalloc 0 7 < 64 → (s.stack st).behind = [] →
      Runs (.evColEntryBroadcast st) s fun t =>
        (t.stack st).colseq = (s.stack st).colseq + 1 ∧ (t.stack st).colQ = l ∧
        (∀ j, j < 32 → e.mask.getLsbD j = true →
          t.byteAt (colAddr st (e.chunk * 32 + j)) = BitVec.ofNat 8 (e.data.toNat / 2 ^ (8 * j)) ∧
          ∀ y, y < 16 → ((s.stack st).layer y).st = .current →
            tget 0 ((t.stack st).layer y).mirror (e.chunk * 32 + j) = BitVec.ofNat 8 (e.data.toNat / 2 ^ (8 * j)) ∧
            ((t.stack st).layer y).horizon = (s.stack st).colseq + 1) ∧
        (∀ a, (∀ j, j < 32 → e.mask.getLsbD j = true → a ≠ colAddr st (e.chunk * 32 + j)) → t.byteAt a = s.byteAt a) ∧
        (e.hart < 512 → (t.hart e.hart).colPend = (s.hart e.hart).colPend - 1)) ∧
    (∀ st y e, y < 16 → fld (s.stack st).colalloc 0 7 < 64 →
      let k := s.stack st
      let lo := (k.layer y).horizon
      (k.layer y).behind = true → k.colseq - lo ≤ 4096 →
      (∀ z, z < 16 → (k.layer z).behind = true → k.colseq - (k.layer z).horizon ≤ 4096 → lo ≤ (k.layer z).horizon) →
      k.colLog[k.colLog.length - (k.colseq - lo)]? = some e → Runs (.evColReplay st) s fun t =>
        ((t.stack st).layer y).horizon = lo + 1 ∧
        ((t.stack st).layer y).st = (if lo + 1 = k.colseq then .current else .catchup) ∧
        (∀ j, j < 32 → e.mask.getLsbD j = true →
          tget 0 ((t.stack st).layer y).mirror (e.chunk * 32 + j) = BitVec.ofNat 8 (e.data.toNat / 2 ^ (8 * j))) ∧
        { t with stks := s.stks } = s) ∧
    (∀ st y, y < 16 → ((s.stack st).layer y).behind = true → 4096 < (s.stack st).colseq - ((s.stack st).layer y).horizon →
      Runs (.evColResync st y) s fun t => ((t.stack st).layer y).st = .current ∧
        ((t.stack st).layer y).horizon = (s.stack st).colseq ∧ { t with stks := s.stks } = s ∧
        (∀ i, i < 0x40000 → tget 0 ((t.stack st).layer y).mirror i = s.byteAt (colAddr st i)) ∧
        (∀ z, z ≠ y → (t.stack st).layer z = (s.stack st).layer z)) ∧
    (∀ st, Runs (.evColFrameBoundary st) s fun t => { t with stks := s.stks } = s ∧
      (∀ j, j ≠ st → t.stack j = s.stack j) ∧
      t.stack st = { s.stack st with colalloc := (s.stack st).colallocNew.getD (s.stack st).colalloc, colallocNew := none }) ∧
    ∀ st y, y < 16 → ((s.stack st).layer y).st = .catchup → ((s.stack st).layer y).powered = false →
      Runs (.evLayerPowered st y) s fun t => ((t.stack st).layer y).powered = true ∧
        ((t.stack st).layer y).st = (if ((s.stack st).layer y).horizon = (s.stack st).colseq then .current else .catchup) ∧
        (∀ z, z ≠ y → (t.stack st).layer z = (s.stack st).layer z) ∧ { t with stks := s.stks } = s

/-- The mailbox commands, the power controller and the life cycle: each command acts or is refused and says which; ceilings,
Veld delays, clocks and layers take what a sample sets in the order of R424, and nothing where it breaks that order; a
reduction that no hart applied lowers the clock; reset, the boot check and the end of the wipe move the life cycle (R40,
R65, R71, R376, R402, R416, R417, R420 to R424). The model's choices are: the refusals of an install (log 36), the ceilings
that a sample may set (log 46), what reset and the wipe leave (log 47), and the 64 bytes of a key (log 51). -/
def Obligations.LifeEvents : Prop :=
  ∀ (s : State),
    (MailboxFree s →
      (∀ pa, pa < 2 ^ 64 → s.veldBusy = false →
        let d := rawNat s pa 64
        let cid := d / 2 ^ 480 % 2 ^ 16
        let good := cmdRange s .read pa 64 = true ∧ d / 2 ^ 496 % 2 ^ 16 = 0 ∧ (s.ctx cid).installed = false ∧ s.ctxHarts cid = []
        Runs (.evMbInstallContext pa) s fun t => t.mem = s.mem ∧ t.harts = s.harts ∧
          (good → t.mbstat = 2 ∧ (t.ctx cid).installed = true ∧ fld (t.ctx cid).spt 0 36 = d % 2 ^ 36 ∧
            fld (t.ctx cid).spt 60 4 = 0b1010 ∧ fld (t.ctx cid).vptb 20 28 = d / 2 ^ 84 % 2 ^ 28 ∧
            fld (t.ctx cid).rdtb 12 36 = d / 2 ^ 140 % 2 ^ 36 ∧ fld (t.ctx cid).ubpool 12 52 = d / 2 ^ 332 % 2 ^ 52 ∧
            (t.ctx cid).acnt = d / 2 ^ 384 % 2 ^ 64 ∧ (t.ctx cid).tlb = []) ∧
          (¬good → t.mbstat = 3 ∧ ∀ c, t.ctx c = s.ctx c)) ∧
      (∀ cid, cid < 2 ^ 64 → (s.ctx cid).installed = true → Leaves s cid →
        Runs (.evMbRemoveContext cid) s fun t => t.mbstat = 2 ∧ RemovedFrom s t cid 0x34 0) ∧
      (∀ key pa, 1 ≤ key → key ≤ 511 → pa < 2 ^ 64 → s.veldBusy = false → cmdRange s .read pa 64 = true → Runs (.evMbLoadKey key pa) s fun t =>
        t.mbstat = 2 ∧ tget 0 t.keys key = rawNat s pa 64 ∧ (∀ k, k ≠ key → tget 0 t.keys k = tget 0 s.keys k) ∧
        (∀ a, (∀ e ∈ s.keyIds, e.1 = a / 128 → e.2 ≠ key) → t.byteAt a = s.byteAt a)) ∧
      (∀ st bal, st < 16 → Runs (.evMbArbitration st bal) s fun t => t.mbstat = 2 ∧ (t.stack st).veld.balanced = bal ∧
        (∀ j, j ≠ st → t.stack j = s.stack j) ∧ t.mem = s.mem ∧ t.harts = s.harts) ∧
      (∀ st, st < 16 →
        (s.fuse = .debug → Runs (.evMbDebugHalt st) s fun t =>
          t.mbstat = 2 ∧ (t.stack st).halted = true ∧ (∀ j, j ≠ st → t.stack j = s.stack j) ∧ t.mem = s.mem) ∧
        (s.fuse = .debug → (s.stack st).halted = true → (∀ e ∈ s.ctxs, e.2.removing = none) → Runs (.evMbDebugRelease st) s fun t =>
          t.mbstat = 2 ∧ (t.stack st).halted = false ∧ (∀ j, j ≠ st → t.stack j = s.stack j) ∧ t.mem = s.mem) ∧
        (s.fuse ≠ .debug →
          (Runs (.evMbDebugHalt st) s fun t => t.mbstat = 3 ∧ t.stks = s.stks) ∧
          Runs (.evMbDebugRelease st) s fun t => t.mbstat = 3 ∧ t.stks = s.stks)) ∧
      (∀ dst, Runs (.evMbLifeCycleChange dst) s fun t => t.fuse = s.fuse ∧ t.mem = s.mem ∧
        (if (s.fuse = .prod ∧ (dst = .debug ∨ dst = .rma)) ∨ (s.fuse = .debug ∧ dst = .prod) then
          t.life = .wipe ∧ t.fuseNew = some dst else t.life = .ready ∧ t.fuseNew = s.fuseNew ∧ t.mbstat = 3)) ∧
      (∀ pa, let n := 256 * 8 + 96 * 2 + 2 + Config.healthPad % 1024
        pa < 2 ^ 64 → s.veldBusy = false → s.softErr = [] →
        (cmdRange s .write pa n = true → Runs (.evMbHealthRecord pa) s fun t => t.mbstat = 2 ∧
          ∀ a, (∀ i, i < n → rawAddr s .write (pa + i) ≠ some a) → t.byteAt a = s.byteAt a) ∧
        (cmdRange s .write pa n = false → Runs (.evMbHealthRecord pa) s fun t => t.mbstat = 3 ∧ t.mem = s.mem))) ∧
    (∀ x, s.life = .ready → s.veldDelay = [] → x.delays = [] →
      (x.slow = [] → s.slow = [] → Runs (.evPowerControllerSample x) s fun t => t.mem = s.mem ∧ t.slow = [] ∧
        (∀ i, tget false t.gated i = decide (i ∈ x.gated ∧ i < 64)) ∧
        (∀ e, x.ceilings = [e] → ceilingOk s e = true → (t.core e.1).ceiling = e.2) ∧
        ∀ n, n < 256 → n ∈ x.wake → n ∉ x.sleep → ((s.stack (n / 16)).layer (n % 16)).st = .asleep →
          ((t.stack (n / 16)).layer (n % 16)).st = .catchup ∧ ((t.stack (n / 16)).layer (n % 16)).powered = false) ∧
      ∀ i, i ∈ x.slow → 64 ≤ i → i < 80 → Runs (.evPowerControllerSample x) s fun t => t = s) ∧
    (∀ x st d, s.life = .ready → x.ceilings = [] → x.delays = [(st, d)] → st < 16 → d ≠ 0 →
      ((∀ c, c < 64 → 48 ≤ (s.core c).ceiling) → Runs (.evPowerControllerSample x) s fun t => t = s) ∧
      ((∃ c, c < 64 ∧ (s.core c).ceiling < 48) → Runs (.evPowerControllerSample x) s fun t => t.mem = s.mem ∧
        tget 0 t.veldDelay st = d ∧ ∀ i, tget false t.slow i =
          decide ((i ∈ x.slow ∧ i < 80) ∨ (i < 64 ∧ tget false s.slow i = true ∧ (s.core i).reduceAt ≠ none)))) ∧
    (∀ core t0, core < 64 → (s.core core).reduceAt = some t0 → t0 + 2000 ≤ s.clock → reductionPending s core = true →
      Runs (.evPowerReductionDeadline core) s fun t => tget false t.slow core = true ∧
        (∀ j, j ≠ core → tget false t.slow j = tget false s.slow j) ∧ { t with slow := s.slow } = s) ∧
    (Runs .evReset s fun t => t.life = .boot ∧ t.fuse = s.fuse ∧ (∀ h, t.hart h = Hart.reset) ∧
      (∀ c, t.core c = Core.reset) ∧ (∀ c, t.ctx c = Context.reset) ∧ t.xsched = 0x3E80001 ∧ t.mem = s.mem ∧
      t.keys = [] ∧ t.reqs = []) ∧
    (∀ ok, s.life = .boot → Runs (.evBootImageVerify ok) s fun t => t = { s with life := if ok then .wipe else .failed }) ∧
    (s.life = .wipe → s.held = [] → Runs .evWipeComplete s fun t =>
      (∀ a, a < 0x040000000000 → t.byteAt a = memDefault a) ∧ t.keyIds = [] ∧ t.poison.filter (fun e => e.1 < 0x4000000000) = [] ∧
        (∀ h, t.hart h = Hart.reset) ∧ t.keys = [] ∧
        (s.fuseNew = none → t.life = .ready ∧ t.fuse = s.fuse) ∧
        ∀ f, s.fuseNew = some f → t.life = .boot ∧ t.fuse = f ∧ t.fuseNew = none)

namespace Sys2Proof.Obl
open Sys2Proof.Machine

/-- Words written out from the encodings of the spec, with their length in bits and what each stands for. They
are the worked encodings of spec/05, spec/06, spec/09, spec/14, spec/15, spec/17, spec/19 and spec/20. -/
def sampleWords : List (Nat × Nat × Instr) :=
  [(48, 0x8804FFC00004, .addiTl2 4 4 0x3FF), (32, 0x40430083, .add 3 3 2), (48, 0x8D4400000040, .bne 4 0 1),
   (64, 0xCA07123456780000, .liTl3 7 0x12345678), (48, 0x91880400000A, .lddTl2 8 10 16), (32, 0x49890109, .srli 9 9 4),
   (16, 0x0000, .nop), (32, 0x55C02000, .tret), (48, 0x94060180014A, .amoadd 6 5 10 true .dv), (48, 0x94C701800000, .crrd 7 6),
   (64, 0xD28500000228000B, .stwTl3 5 11 552), (32, 0x70410102, .mopa 1 2 4), (48, 0xB60600000140, .tlwait 6 0 5),
   (32, 0x7840A500, .svf { sc := .dv, dir := 2, pr := false, pw := true, sr := false, sw := true }),
   (32, 0x74000554, .fork { xm := false, xc := false, rm := false, rc := false, b := 21, a := 20 }),
   (32, 0x7C060009, .vlaunch 6 9), (48, 0xBD060000B30A, .vclone 6 false 10 12 11), (48, 0xBCC6000002CA, .vzero 6 false 10 11),
   (48, 0xB9410000034C, .colst 1 0 13 12), (32, 0x79864007, .colwaitLayers 6 7), (32, 0x7D461000, .vquery 6 1 0)]

/-- Words that name no instruction: an F of 7 in OP 0x57 (R174), a FENCE without predecessor (R164), a head with OP 0xFF
and an ADD with F = 1 (R95, R142). -/
def refusedWords : List (Nat × Nat) := [(32, 0x55C07000), (32, 0x78008040), (16, 0x3FC0), (32, 0x40431083)]

/-- Hart `h` is the one to run in a state and may fetch: no turn is scheduled before it, its vector queue is empty, it
waits for no response, and nothing is delivered at this boundary (R141, R394). -/
def MayFetch (p : State) (h : Nat) : Prop :=
  p.sched = [] ∧ p.agent = .hart h ∧ (p.hart h).vq = [] ∧ (p.hart h).await = none ∧ (p.hart h).owed = false ∧
    hartRuns p h = true ∧ boundary p h = none

/-- The bytes that the fetch of hart `h` gets at its program counter, as the line it executes, with the state after. -/
def Fetched (p : State) (h line : Nat) (u : State) : Prop :=
  ∃ now v, EStateM.run (do fetchLine (← myRq) (lineOf (p.hart h).pc)) p = .ok now v ∧
    (hartLine v h (lineOf (p.hart h).pc).toNat now).1 = line ∧
    u = (hartLine v h (lineOf (p.hart h).pc).toNat now).2.modHart h (fun x => { x with nh := lineNH line })

/-- Registers for which the spec gives a reset value, by their index of R89 (R41, R61, R87, R108, R111 to R113, R185,
R245, R355, R358, R367, R372, R373, R384, R385, R401). -/
def resetValues : List (Nat × W) :=
  [(0x000, 0x8000000000000000#64), (0x001, 0), (0x002, 0), (0x003, 0), (0x004, 0), (0x005, 0), (0x006, 0), (0x010, 0),
   (0x011, 0), (0x012, 0), (0x013, 0), (0x014, 0), (0x015, 0), (0x016, 0), (0x017, 0), (0x020, 0xA000000000000000#64),
   (0x021, 0), (0x022, 0), (0x023, 0), (0x028, 0), (0x038, 0x30#64), (0x039, 0), (0x03A, 0x3E80001#64), (0x03B, 0),
   (0x041, 0), (0x051, 0), (0x052, 0), (0x053, 0)]

end Sys2Proof.Obl

/-- Words written from the encodings of the spec decode to the instructions they stand for, and words that name none are
refused (R77 to R79, R95, R105). -/
def Obligations.SampleWordsDecode : Prop :=
  (∀ e ∈ sampleWords, decodeTableWord e.1 e.2.1 = some e.2.2) ∧ (∀ e ∈ refusedWords, decodeTableWord e.1 e.2 = none)

/-- Decoding and encoding agree. The head and tail of every well-formed instruction fit their fields, the line that holds
them alone validates, and they read back as that instruction with every operand; and a head and tail decode only to a
well-formed instruction of which they are the encoding, so that reserved bits are refused (R78, R79, R95). -/
def Obligations.DecodeInvertsEncode : Prop :=
  (∀ (i : Instr) (e : Enc), wellFormed i = true → encode i = some e →
    e.tl < 4 ∧ e.op < 256 ∧ e.d < 64 ∧ e.tail < 65536 ^ e.tl ∧ decodeEnc e = some i ∧
    lineOk (oneLine e) = true ∧ lineNH (oneLine e) = 1 ∧ lineEnc (oneLine e) 1 = e) ∧
  (∀ (i : Instr) (e : Enc), decodeEnc e = some i → wellFormed i = true ∧ encode i = some e)

/-- A step runs the decoded instruction. Time passes first (log 3). A hart that may fetch, and whose bytes at the program
counter decode to an instruction, executes that instruction, with NH of its line kept; bytes that decode to none take the
line-format fault or the illegal-instruction trap with the TVAL of R80, R85 and R95. An event at the head of the schedule
is executed as it stands; the head of the vector queue comes before the next fetch (log 4, log 29), and an answer of the fabric
that is no trap completes its instruction before both (R388). -/
def Obligations.StepRunsTheDecodedInstruction : Prop :=
  ∀ (s : State) (h : Nat),
    let p := passTime s
    (∀ line u, MayFetch p h → Fetched p h line u →
      (∀ i, lineInstr line (p.hart h).pc = .ok i → step s = exec i u) ∧
      (∀ c v, lineInstr line (p.hart h).pc = .error (c, v) → step s = .next (raise u .nop false c v 0))) ∧
    (∀ e r, p.sched = .event e :: r → encode e = none → step s = exec e { p with sched := r }) ∧
    (∀ e r, p.sched = [] → p.agent.base = .hart h → (p.hart h).owed = false → (p.hart h).vq = e :: r → queueRuns p h = true →
      hartRuns p h = false ∨ answerLands p h = false → step s = exec e.instr { p with agent := .queue h }) ∧
    (∀ q, p.sched = [] → p.agent.base = .hart h → (p.hart h).owed = false → hartRuns p h = true → awaited p h = some q →
      answerLands p h = true → step s = exec q.instr { p with agent := .hart h }) ∧
    (∀ t, p.sched = [] → p.agent.base = .hart h → (p.hart h).vq = [] → (p.hart h).await = none → (p.hart h).owed = false →
      hartRuns p h = true → boundary p h = some t → step s = .next t)

/-- What reset leaves, where the spec gives the value: the control registers, HARTID, the queue registers (R49, R410), the
ports (R419), the route tables (R34), the exchange rounds (R355, R356), the package limit (R424) and the life-cycle state
(R421). -/
def Obligations.ResetLeavesTheGivenValues : Prop :=
  let s := State.reset
  (∀ h, h < 512 → (∀ e ∈ resetValues, crValue s h e.1 = some e.2) ∧ crValue s h 0x050 = some (wd h)) ∧
  (∀ t q, (s.stack t).queue q =
    { (s.stack t).queue q with qbase := 0, cid := 0, logn := 0, prio := 0, st := .idle, terr := false, en := true,
                               head := 0, tail := 0, qerr := 0 }) ∧
  (∀ p, (s.port p).en = false ∧ (s.port p).up = false ∧ (s.port p).down = false ∧ (s.port p).width = 0 ∧
    (s.port p).rate = 0) ∧
  (∀ a b, a < 16 → b < 16 →
    let e := ((s.stack a).route a b).toNat
    let col := (b % 4 - a % 4) + (a % 4 - b % 4)
    let row := (b / 4 - a / 4) + (a / 4 - b / 4)
    e / 2 ^ 28 = col + row ∧ e / 2 ^ 24 % 16 = 0 ∧
      (∀ i, i < 12 → e / 4 ^ i % 4 = (if i < col then (if a % 4 < b % 4 then 1 else 3)
        else if i < col + row then (if a / 4 < b / 4 then 2 else 0) else 0)) ∧
      ∀ vc, trip s a b vc = .arrived b) ∧
  s.clampHost = 1800 ∧ s.clampFw = 1800 ∧
  s.xschedNow = 0x3E80001#64 ∧ s.round = 0 ∧ s.roundBase = 0 ∧ s.roundTime = 0 ∧ s.life = .boot

/-- Reset memory has the canonical form (log 1). -/
def Obligations.ResetMemoryIsCanonical : Prop := Memory.wf State.reset.mem = true

/-- Every step keeps the canonical form of memory: addresses strictly rising, and no byte listed that an unlisted address
reads as (log 1), so that memories with the same bytes are the same data. -/
def Obligations.StepKeepsMemoryCanonical : Prop :=
  ∀ s t : State, Memory.wf s.mem = true → step s = .next t → Memory.wf t.mem = true

/-- System calls and breakpoints of a hart, nested and fatal traps among them (R71, R175, R387, R398, R402): each part says
which. -/
def Obligations.CallsAndBreakpoints : Prop :=
  Obl.CallsTrap ∧ Obl.NestedTrapKeepsTheOuter ∧ Obl.FatalTraps ∧ Obl.ArmedBreakpointHalts

/-- Precise traps with nothing else changed: a return with a bad status, a branch target that is no slot, a misaligned scalar
access, an element access that faults; and the refusals of a vector store (R150, R155, R176, R213, R214, R240, R248). -/
def Obligations.BadOperandsTrapPrecisely : Prop :=
  Obl.BadReturnTraps ∧ Obl.BadTargetTraps ∧ Obl.MisalignedScalarAccessTraps ∧ Obl.ElementTraps ∧ Obl.ElementRefusals

/-- What a level may not run is an illegal instruction (R89, R171, R178, R180, R181). The bits 63:57 of the handler's
address are the model's choice of log 63. -/
def Obligations.LowerLevelsAreDenied : Prop := Obl.SupervisorOnly ∧ Obl.ControlRegisterDenied

/-- The control-register instructions, reading and writing (R89, R171, R172). -/
def Obligations.ControlRegisters : Prop := Obl.ControlRegisterReads ∧ Obl.ControlRegisterWrites

/-- The order instructions and WFI complete (R164 to R170, R177). -/
def Obligations.OrderAndWait : Prop := Obl.OrderInstructionsComplete ∧ Obl.WaitForInterrupt

/-- The unbacked lines: DISCARD, MIGR, and the loss of a line where the spill pool is exhausted (R363 to R371). -/
def Obligations.UnbackedInstructions : Prop := Obl.DiscardAndMigrate ∧ Obl.SpillExhaustionRemoves

/-- The permutations, VCOMPRESS among them (R207). -/
def Obligations.VectorPermutationsAndCompress : Prop := Obl.VectorPermutations ∧ Obl.VectorCompress

/-- Streams: binding one, and reading through one (R221 to R224). -/
def Obligations.Streams : Prop := Obl.StreamsBind ∧ Obl.StreamFeedsReader

/-- Loads and stores with storage formats and side lists (R218 to R220). -/
def Obligations.BlockTransfers : Prop := Obl.BlockLoads ∧ Obl.BlockStores

/-- The tile loads and stores (R284, R285). -/
def Obligations.TileMemory : Prop := Obl.TileLoads ∧ Obl.TileStores

/-- Barriers: what each transaction barrier instruction does in a hart, with the overflow trap, and in a sequencer (R261, R304
to R306, R314); the barriers of the harts of a crew and of a band (R309). The bits 63:57 of the overflow trap's handler address
are the model's choice of log 63. -/
def Obligations.Barriers : Prop :=
  Obl.TransactionBarriers ∧ Obl.BarrierOverflowTraps ∧ Obl.SequencerBarriers ∧ Obl.HartBarriers

namespace Sys2Proof.Obl

/-- Word `i` of `w` bytes of a line (R249). -/
def wordAt (w x i : Nat) : BitVec (8 * w) := BitVec.ofNat (8 * w) (x / 2 ^ (8 * w * i))

/-- The delta encodings of R249 by tag: bytes of the base and of a delta. -/
def deltaTags : List (Nat × Nat × Nat) := [(3, 8, 1), (4, 8, 2), (5, 4, 1), (6, 4, 2), (7, 2, 1)]

/-- The sectors that R249 gives the tags 0 to 7. -/
def sectorsOfTag : List Nat := [4, 0, 1, 1, 2, 2, 3, 3]

/-- A line fits the encoding of a tag from 0 to 7 (R249). -/
def Fits (x tag : Nat) : Prop :=
  (tag = 0 ∨ (tag = 1 ∧ x = 0) ∨ (tag = 2 ∧ ∀ i, i < 16 → wordAt 8 x i = wordAt 8 x 0)) ∨
    ∃ w d, (tag, w, d) ∈ deltaTags ∧ ∀ i, i < 128 / w →
      -(2 : Int) ^ (8 * d - 1) ≤ (wordAt w x i - wordAt w x 0).toInt ∧ (wordAt w x i - wordAt w x 0).toInt < 2 ^ (8 * d - 1)

end Sys2Proof.Obl

/-- Lines of DRAM (R249, R250, R269): a line is stored under the fitting tag of fewest sectors, the lower of a tie; its stored
bytes fill no more, hold the base and then the deltas, and read back as the line; and a store leaves each line that it touches
with the tag of its bytes, or with 0 where CMP is 0 or a part of it is poisoned. -/
def Obligations.LineEncodings : Prop :=
  (∀ x, x < 2 ^ 1024 →
    let g := chooseTag x
    g < 8 ∧ Fits x g ∧ (∀ k, k < 8 → Fits x k →
      sectorsOfTag.getD g 0 < sectorsOfTag.getD k 0 ∨ (sectorsOfTag.getD g 0 = sectorsOfTag.getD k 0 ∧ g ≤ k)) ∧
    storedLine g x < 2 ^ (256 * sectorsOfTag.getD g 0) ∧ readLine g (storedLine g x) = x ∧
    (g = 2 → storedLine g x = x % 2 ^ 64) ∧
    ∀ w d, (g, w, d) ∈ deltaTags → storedLine g x % 2 ^ (8 * w) = (wordAt w x 0).toNat ∧
      (∀ i, i < 128 / w → storedLine g x / 2 ^ (8 * (w + d * i)) % 2 ^ (8 * d) =
        (wordAt w x i - wordAt w x 0).toNat % 2 ^ (8 * d)) ∧
      storedLine g x < 2 ^ (8 * (w + d * (128 / w)))) ∧
  ∀ (s : State) (key a n x w who : Nat) (cmp : Bool) (cov : Cov),
    let t := dramWrite s key cmp a n x w who cov
    ∀ l ∈ linesOf a n, tget 0 t.tags l =
      if cmp = true ∧ (∀ p, p < 8 → t.poisoned (8 * l + p) = false) then chooseTag (t.natAt (128 * l) 128) else 0
end

