-- ==== Sys2Proof/Laws/Tab.lean ====
section
/-! SUPPORT. The laws of the tables: reading after writing, and the canonical form. -/
namespace Sys2Proof.Machine

variable {α : Type}

/-- A key that was removed reads as the default. -/
@[simp] theorem tget_tdel_same (d : α) (t : Tab α) (k : Nat) : tget d (tdel t k) k = d := by
  induction t with
  | nil => rfl
  | cons e r ih => by_cases h : e.1 = k <;> simp [tdel, tget, h, ih]

/-- Removing a key leaves every other key. -/
@[simp] theorem tget_tdel_ne (d : α) (t : Tab α) {k j : Nat} (h : j ≠ k) : tget d (tdel t k) j = tget d t j := by
  induction t with
  | nil => rfl
  | cons e r ih =>
    by_cases hk : e.1 = k
    · subst hk; simp [tdel, tget, ih, Ne.symm h]
    · simp [tdel, tget, hk, ih]

/-- A key put into a table that does not list it reads back. -/
theorem tget_tins_same (d v : α) (t : Tab α) (k : Nat) (h : ∀ e ∈ t, e.1 ≠ k) : tget d (tins t k v) k = v := by
  induction t with
  | nil => simp [tins, tget]
  | cons e r ih =>
    have he : e.1 ≠ k := h e (by simp)
    by_cases hk : k < e.1 <;> simp [tins, tget, hk, he]
    exact ih (fun x hx => h x (by simp [hx]))

/-- Putting a key leaves every other key. -/
@[simp] theorem tget_tins_ne (d v : α) (t : Tab α) {k j : Nat} (h : j ≠ k) : tget d (tins t k v) j = tget d t j := by
  induction t with
  | nil => simp [tins, tget, Ne.symm h]
  | cons e r ih =>
    by_cases hk : k < e.1
    · simp [tins, tget, hk, Ne.symm h]
    · simp [tins, tget, hk, ih]

/-- A removed key is not listed. -/
theorem tdel_not_listed (t : Tab α) (k : Nat) : ∀ e ∈ tdel t k, e.1 ≠ k := by
  induction t with
  | nil => simp [tdel]
  | cons e r ih =>
    by_cases h : e.1 = k
    · simpa [tdel, h] using ih
    · simp only [tdel, h, if_false]
      intro x hx
      rcases List.mem_cons.mp hx with rfl | hx
      · exact h
      · exact ih x hx

/-- A written key reads back, the default included. -/
@[simp] theorem tget_tput_same [DecidableEq α] (d v : α) (t : Tab α) (k : Nat) : tget d (tput d t k v) k = v := by
  by_cases h : v = d
  · simp [tput, h]
  · simp [tput, h, tget_tins_same _ _ _ _ (tdel_not_listed t k)]

/-- A write leaves every other key, whatever its own default. -/
@[simp] theorem tget_tput_ne [DecidableEq α] (d d' v : α) (t : Tab α) {k j : Nat} (h : j ≠ k) :
    tget d' (tput d t k v) j = tget d' t j := by
  by_cases hv : v = d <;> simp [tput, hv, h]

section Form
variable [DecidableEq α] (d : Nat → α)

/-- A lower bound may be lowered. -/
theorem twf_le {lo hi : Nat} (t : Tab α) (h : lo ≤ hi) (w : twfFrom d hi t = true) : twfFrom d lo t = true := by
  cases t with
  | nil => rfl
  | cons e r =>
    simp only [twfFrom, Bool.and_eq_true, decide_eq_true_eq] at w ⊢
    exact ⟨⟨by omega, w.1.2⟩, w.2⟩

/-- Removing a key keeps the form. -/
theorem twf_tdel (lo : Nat) (t : Tab α) (k : Nat) (w : twfFrom d lo t = true) : twfFrom d lo (tdel t k) = true := by
  induction t generalizing lo with
  | nil => rfl
  | cons e r ih =>
    simp only [twfFrom, Bool.and_eq_true, decide_eq_true_eq] at w
    by_cases h : e.1 = k
    · simp only [tdel, h, if_true]
      exact twf_le d _ (by omega) (ih _ w.2)
    · simp only [tdel, h, if_false, twfFrom, Bool.and_eq_true, decide_eq_true_eq]
      exact ⟨w.1, ih _ w.2⟩

/-- Putting a key that is not listed, with a value that is not its default, keeps the form. -/
theorem twf_tins (lo : Nat) (t : Tab α) (k : Nat) (v : α) (hk : lo ≤ k) (hv : v ≠ d k) (hn : ∀ e ∈ t, e.1 ≠ k)
    (w : twfFrom d lo t = true) : twfFrom d lo (tins t k v) = true := by
  induction t generalizing lo with
  | nil => simp [tins, twfFrom, hk, hv]
  | cons e r ih =>
    have he : e.1 ≠ k := hn e (by simp)
    simp only [twfFrom, Bool.and_eq_true, decide_eq_true_eq] at w
    by_cases h : k < e.1
    · simp only [tins, h, if_true, twfFrom, Bool.and_eq_true, decide_eq_true_eq]
      exact ⟨⟨hk, hv⟩, ⟨by omega, w.1.2⟩, w.2⟩
    · simp only [tins, h, if_false, twfFrom, Bool.and_eq_true, decide_eq_true_eq]
      exact ⟨w.1, ih _ (by omega) (fun x hx => hn x (by simp [hx])) w.2⟩

/-- A write with the default of its key keeps the form. -/
theorem twf_tput (lo : Nat) (t : Tab α) (k : Nat) (v : α) (hk : lo ≤ k) (w : twfFrom d lo t = true) :
    twfFrom d lo (tput (d k) t k v) = true := by
  by_cases h : v = d k
  · simpa [tput, h] using twf_tdel d lo t k w
  · simp only [tput, h, if_false]
    exact twf_tins d lo _ k v hk h (tdel_not_listed t k) (twf_tdel d lo t k w)

/-- Dropping entries keeps the form. -/
theorem twf_tfilter (lo : Nat) (p : Nat → Bool) (t : Tab α) (w : twfFrom d lo t = true) :
    twfFrom d lo (tfilter p t) = true := by
  induction t generalizing lo with
  | nil => rfl
  | cons e r ih =>
    simp only [twfFrom, Bool.and_eq_true, decide_eq_true_eq] at w
    by_cases h : p e.1
    · simp only [tfilter, h, if_true, twfFrom, Bool.and_eq_true, decide_eq_true_eq]
      exact ⟨w.1, ih _ w.2⟩
    · simp only [tfilter, h]
      exact twf_le d _ (by omega) (ih _ w.2)

end Form

/-- A dropped key reads as the default, a kept one as before. -/
theorem tget_tfilter (d : α) (p : Nat → Bool) (t : Tab α) (k : Nat) :
    tget d (tfilter p t) k = if p k then tget d t k else d := by
  induction t with
  | nil => simp [tfilter, tget]
  | cons e r ih =>
    by_cases hp : p e.1 <;> by_cases hk : e.1 = k <;> simp_all [tfilter, tget]

end Sys2Proof.Machine
end

