-- ==== Sys2Proof/Laws/State.lean ====
section
/-! SUPPORT. What each update of the state changes: one lemma for each field and update, and reading after writing. -/
namespace Sys2Proof.Machine

section setHart
variable (s : State) (h : Nat) (x : Hart)
@[simp] theorem State.setHart_cores : (s.setHart h x).cores = s.cores := rfl
@[simp] theorem State.setHart_stacks : (s.setHart h x).stks = s.stks := rfl
@[simp] theorem State.setHart_ctxs : (s.setHart h x).ctxs = s.ctxs := rfl
@[simp] theorem State.setHart_mem : (s.setHart h x).mem = s.mem := rfl
@[simp] theorem State.setHart_poison : (s.setHart h x).poison = s.poison := rfl
@[simp] theorem State.setHart_lost : (s.setHart h x).lost = s.lost := rfl
@[simp] theorem State.setHart_keyIds : (s.setHart h x).keyIds = s.keyIds := rfl
@[simp] theorem State.setHart_tags : (s.setHart h x).tags = s.tags := rfl
@[simp] theorem State.setHart_softErr : (s.setHart h x).softErr = s.softErr := rfl
@[simp] theorem State.setHart_stale : (s.setHart h x).stale = s.stale := rfl
@[simp] theorem State.setHart_hostLines : (s.setHart h x).hostLines = s.hostLines := rfl
@[simp] theorem State.setHart_winParts : (s.setHart h x).winParts = s.winParts := rfl
@[simp] theorem State.setHart_latAcc : (s.setHart h x).latAcc = s.latAcc := rfl
@[simp] theorem State.setHart_ttl : (s.setHart h x).ttl = s.ttl := rfl
@[simp] theorem State.setHart_keys : (s.setHart h x).keys = s.keys := rfl
@[simp] theorem State.setHart_timelines : (s.setHart h x).timelines = s.timelines := rfl
@[simp] theorem State.setHart_nodes : (s.setHart h x).nodes = s.nodes := rfl
@[simp] theorem State.setHart_graphs : (s.setHart h x).graphs = s.graphs := rfl
@[simp] theorem State.setHart_bands : (s.setHart h x).bands = s.bands := rfl
@[simp] theorem State.setHart_reqs : (s.setHart h x).reqs = s.reqs := rfl
@[simp] theorem State.setHart_served : (s.setHart h x).served = s.served := rfl
@[simp] theorem State.setHart_seqNo : (s.setHart h x).seqNo = s.seqNo := rfl
@[simp] theorem State.setHart_refusals : (s.setHart h x).refusals = s.refusals := rfl
@[simp] theorem State.setHart_xlines : (s.setHart h x).xlines = s.xlines := rfl
@[simp] theorem State.setHart_xsent : (s.setHart h x).xsent = s.xsent := rfl
@[simp] theorem State.setHart_arriving : (s.setHart h x).arriving = s.arriving := rfl
@[simp] theorem State.setHart_crewStops : (s.setHart h x).crewStops = s.crewStops := rfl
@[simp] theorem State.setHart_ports : (s.setHart h x).ports = s.ports := rfl
@[simp] theorem State.setHart_xsched : (s.setHart h x).xsched = s.xsched := rfl
@[simp] theorem State.setHart_xschedNow : (s.setHart h x).xschedNow = s.xschedNow := rfl
@[simp] theorem State.setHart_round : (s.setHart h x).round = s.round := rfl
@[simp] theorem State.setHart_roundBase : (s.setHart h x).roundBase = s.roundBase := rfl
@[simp] theorem State.setHart_roundTime : (s.setHart h x).roundTime = s.roundTime := rfl
@[simp] theorem State.setHart_life : (s.setHart h x).life = s.life := rfl
@[simp] theorem State.setHart_fuse : (s.setHart h x).fuse = s.fuse := rfl
@[simp] theorem State.setHart_fuseNew : (s.setHart h x).fuseNew = s.fuseNew := rfl
@[simp] theorem State.setHart_sdp : (s.setHart h x).sdp = s.sdp := rfl
@[simp] theorem State.setHart_mbarg : (s.setHart h x).mbarg = s.mbarg := rfl
@[simp] theorem State.setHart_mbcmd : (s.setHart h x).mbcmd = s.mbcmd := rfl
@[simp] theorem State.setHart_mbstat : (s.setHart h x).mbstat = s.mbstat := rfl
@[simp] theorem State.setHart_clampHost : (s.setHart h x).clampHost = s.clampHost := rfl
@[simp] theorem State.setHart_clampFw : (s.setHart h x).clampFw = s.clampFw := rfl
@[simp] theorem State.setHart_eol : (s.setHart h x).eol = s.eol := rfl
@[simp] theorem State.setHart_ageing : (s.setHart h x).ageing = s.ageing := rfl
@[simp] theorem State.setHart_slow : (s.setHart h x).slow = s.slow := rfl
@[simp] theorem State.setHart_gated : (s.setHart h x).gated = s.gated := rfl
@[simp] theorem State.setHart_veldDelay : (s.setHart h x).veldDelay = s.veldDelay := rfl
@[simp] theorem State.setHart_linksDown : (s.setHart h x).linksDown = s.linksDown := rfl
@[simp] theorem State.setHart_linkOff : (s.setHart h x).linkOff = s.linkOff := rfl
@[simp] theorem State.setHart_linkFlits : (s.setHart h x).linkFlits = s.linkFlits := rfl
@[simp] theorem State.setHart_held : (s.setHart h x).held = s.held := rfl
@[simp] theorem State.setHart_out : (s.setHart h x).out = s.out := rfl
@[simp] theorem State.setHart_time : (s.setHart h x).time = s.time := rfl
@[simp] theorem State.setHart_clock : (s.setHart h x).clock = s.clock := rfl
@[simp] theorem State.setHart_ticks : (s.setHart h x).ticks = s.ticks := rfl
@[simp] theorem State.setHart_resetTick : (s.setHart h x).resetTick = s.resetTick := rfl
@[simp] theorem State.setHart_fresh : (s.setHart h x).fresh = s.fresh := rfl
@[simp] theorem State.setHart_agent : (s.setHart h x).agent = s.agent := rfl
@[simp] theorem State.setHart_sched : (s.setHart h x).sched = s.sched := rfl
@[simp] theorem State.setHart_cutAt : (s.setHart h x).cutAt = s.cutAt := rfl
@[simp] theorem State.setHart_posting : (s.setHart h x).posting = s.posting := rfl
end setHart

section setCore
variable (s : State) (c : Nat) (x : Core)
@[simp] theorem State.setCore_harts : (s.setCore c x).harts = s.harts := rfl
@[simp] theorem State.setCore_stacks : (s.setCore c x).stks = s.stks := rfl
@[simp] theorem State.setCore_ctxs : (s.setCore c x).ctxs = s.ctxs := rfl
@[simp] theorem State.setCore_mem : (s.setCore c x).mem = s.mem := rfl
@[simp] theorem State.setCore_poison : (s.setCore c x).poison = s.poison := rfl
@[simp] theorem State.setCore_lost : (s.setCore c x).lost = s.lost := rfl
@[simp] theorem State.setCore_keyIds : (s.setCore c x).keyIds = s.keyIds := rfl
@[simp] theorem State.setCore_tags : (s.setCore c x).tags = s.tags := rfl
@[simp] theorem State.setCore_softErr : (s.setCore c x).softErr = s.softErr := rfl
@[simp] theorem State.setCore_stale : (s.setCore c x).stale = s.stale := rfl
@[simp] theorem State.setCore_hostLines : (s.setCore c x).hostLines = s.hostLines := rfl
@[simp] theorem State.setCore_winParts : (s.setCore c x).winParts = s.winParts := rfl
@[simp] theorem State.setCore_latAcc : (s.setCore c x).latAcc = s.latAcc := rfl
@[simp] theorem State.setCore_ttl : (s.setCore c x).ttl = s.ttl := rfl
@[simp] theorem State.setCore_keys : (s.setCore c x).keys = s.keys := rfl
@[simp] theorem State.setCore_timelines : (s.setCore c x).timelines = s.timelines := rfl
@[simp] theorem State.setCore_nodes : (s.setCore c x).nodes = s.nodes := rfl
@[simp] theorem State.setCore_graphs : (s.setCore c x).graphs = s.graphs := rfl
@[simp] theorem State.setCore_bands : (s.setCore c x).bands = s.bands := rfl
@[simp] theorem State.setCore_reqs : (s.setCore c x).reqs = s.reqs := rfl
@[simp] theorem State.setCore_served : (s.setCore c x).served = s.served := rfl
@[simp] theorem State.setCore_seqNo : (s.setCore c x).seqNo = s.seqNo := rfl
@[simp] theorem State.setCore_refusals : (s.setCore c x).refusals = s.refusals := rfl
@[simp] theorem State.setCore_xlines : (s.setCore c x).xlines = s.xlines := rfl
@[simp] theorem State.setCore_xsent : (s.setCore c x).xsent = s.xsent := rfl
@[simp] theorem State.setCore_arriving : (s.setCore c x).arriving = s.arriving := rfl
@[simp] theorem State.setCore_crewStops : (s.setCore c x).crewStops = s.crewStops := rfl
@[simp] theorem State.setCore_ports : (s.setCore c x).ports = s.ports := rfl
@[simp] theorem State.setCore_xsched : (s.setCore c x).xsched = s.xsched := rfl
@[simp] theorem State.setCore_xschedNow : (s.setCore c x).xschedNow = s.xschedNow := rfl
@[simp] theorem State.setCore_round : (s.setCore c x).round = s.round := rfl
@[simp] theorem State.setCore_roundBase : (s.setCore c x).roundBase = s.roundBase := rfl
@[simp] theorem State.setCore_roundTime : (s.setCore c x).roundTime = s.roundTime := rfl
@[simp] theorem State.setCore_life : (s.setCore c x).life = s.life := rfl
@[simp] theorem State.setCore_fuse : (s.setCore c x).fuse = s.fuse := rfl
@[simp] theorem State.setCore_fuseNew : (s.setCore c x).fuseNew = s.fuseNew := rfl
@[simp] theorem State.setCore_sdp : (s.setCore c x).sdp = s.sdp := rfl
@[simp] theorem State.setCore_mbarg : (s.setCore c x).mbarg = s.mbarg := rfl
@[simp] theorem State.setCore_mbcmd : (s.setCore c x).mbcmd = s.mbcmd := rfl
@[simp] theorem State.setCore_mbstat : (s.setCore c x).mbstat = s.mbstat := rfl
@[simp] theorem State.setCore_clampHost : (s.setCore c x).clampHost = s.clampHost := rfl
@[simp] theorem State.setCore_clampFw : (s.setCore c x).clampFw = s.clampFw := rfl
@[simp] theorem State.setCore_eol : (s.setCore c x).eol = s.eol := rfl
@[simp] theorem State.setCore_ageing : (s.setCore c x).ageing = s.ageing := rfl
@[simp] theorem State.setCore_slow : (s.setCore c x).slow = s.slow := rfl
@[simp] theorem State.setCore_gated : (s.setCore c x).gated = s.gated := rfl
@[simp] theorem State.setCore_veldDelay : (s.setCore c x).veldDelay = s.veldDelay := rfl
@[simp] theorem State.setCore_linksDown : (s.setCore c x).linksDown = s.linksDown := rfl
@[simp] theorem State.setCore_linkOff : (s.setCore c x).linkOff = s.linkOff := rfl
@[simp] theorem State.setCore_linkFlits : (s.setCore c x).linkFlits = s.linkFlits := rfl
@[simp] theorem State.setCore_held : (s.setCore c x).held = s.held := rfl
@[simp] theorem State.setCore_out : (s.setCore c x).out = s.out := rfl
@[simp] theorem State.setCore_time : (s.setCore c x).time = s.time := rfl
@[simp] theorem State.setCore_clock : (s.setCore c x).clock = s.clock := rfl
@[simp] theorem State.setCore_ticks : (s.setCore c x).ticks = s.ticks := rfl
@[simp] theorem State.setCore_resetTick : (s.setCore c x).resetTick = s.resetTick := rfl
@[simp] theorem State.setCore_fresh : (s.setCore c x).fresh = s.fresh := rfl
@[simp] theorem State.setCore_agent : (s.setCore c x).agent = s.agent := rfl
@[simp] theorem State.setCore_sched : (s.setCore c x).sched = s.sched := rfl
@[simp] theorem State.setCore_cutAt : (s.setCore c x).cutAt = s.cutAt := rfl
@[simp] theorem State.setCore_posting : (s.setCore c x).posting = s.posting := rfl
end setCore

section setStack
variable (s : State) (t : Nat) (x : Stack)
@[simp] theorem State.setStack_harts : (s.setStack t x).harts = s.harts := rfl
@[simp] theorem State.setStack_cores : (s.setStack t x).cores = s.cores := rfl
@[simp] theorem State.setStack_ctxs : (s.setStack t x).ctxs = s.ctxs := rfl
@[simp] theorem State.setStack_mem : (s.setStack t x).mem = s.mem := rfl
@[simp] theorem State.setStack_poison : (s.setStack t x).poison = s.poison := rfl
@[simp] theorem State.setStack_lost : (s.setStack t x).lost = s.lost := rfl
@[simp] theorem State.setStack_keyIds : (s.setStack t x).keyIds = s.keyIds := rfl
@[simp] theorem State.setStack_tags : (s.setStack t x).tags = s.tags := rfl
@[simp] theorem State.setStack_softErr : (s.setStack t x).softErr = s.softErr := rfl
@[simp] theorem State.setStack_stale : (s.setStack t x).stale = s.stale := rfl
@[simp] theorem State.setStack_hostLines : (s.setStack t x).hostLines = s.hostLines := rfl
@[simp] theorem State.setStack_winParts : (s.setStack t x).winParts = s.winParts := rfl
@[simp] theorem State.setStack_latAcc : (s.setStack t x).latAcc = s.latAcc := rfl
@[simp] theorem State.setStack_ttl : (s.setStack t x).ttl = s.ttl := rfl
@[simp] theorem State.setStack_keys : (s.setStack t x).keys = s.keys := rfl
@[simp] theorem State.setStack_timelines : (s.setStack t x).timelines = s.timelines := rfl
@[simp] theorem State.setStack_nodes : (s.setStack t x).nodes = s.nodes := rfl
@[simp] theorem State.setStack_graphs : (s.setStack t x).graphs = s.graphs := rfl
@[simp] theorem State.setStack_bands : (s.setStack t x).bands = s.bands := rfl
@[simp] theorem State.setStack_reqs : (s.setStack t x).reqs = s.reqs := rfl
@[simp] theorem State.setStack_served : (s.setStack t x).served = s.served := rfl
@[simp] theorem State.setStack_seqNo : (s.setStack t x).seqNo = s.seqNo := rfl
@[simp] theorem State.setStack_refusals : (s.setStack t x).refusals = s.refusals := rfl
@[simp] theorem State.setStack_xlines : (s.setStack t x).xlines = s.xlines := rfl
@[simp] theorem State.setStack_xsent : (s.setStack t x).xsent = s.xsent := rfl
@[simp] theorem State.setStack_arriving : (s.setStack t x).arriving = s.arriving := rfl
@[simp] theorem State.setStack_crewStops : (s.setStack t x).crewStops = s.crewStops := rfl
@[simp] theorem State.setStack_ports : (s.setStack t x).ports = s.ports := rfl
@[simp] theorem State.setStack_xsched : (s.setStack t x).xsched = s.xsched := rfl
@[simp] theorem State.setStack_xschedNow : (s.setStack t x).xschedNow = s.xschedNow := rfl
@[simp] theorem State.setStack_round : (s.setStack t x).round = s.round := rfl
@[simp] theorem State.setStack_roundBase : (s.setStack t x).roundBase = s.roundBase := rfl
@[simp] theorem State.setStack_roundTime : (s.setStack t x).roundTime = s.roundTime := rfl
@[simp] theorem State.setStack_life : (s.setStack t x).life = s.life := rfl
@[simp] theorem State.setStack_fuse : (s.setStack t x).fuse = s.fuse := rfl
@[simp] theorem State.setStack_fuseNew : (s.setStack t x).fuseNew = s.fuseNew := rfl
@[simp] theorem State.setStack_sdp : (s.setStack t x).sdp = s.sdp := rfl
@[simp] theorem State.setStack_mbarg : (s.setStack t x).mbarg = s.mbarg := rfl
@[simp] theorem State.setStack_mbcmd : (s.setStack t x).mbcmd = s.mbcmd := rfl
@[simp] theorem State.setStack_mbstat : (s.setStack t x).mbstat = s.mbstat := rfl
@[simp] theorem State.setStack_clampHost : (s.setStack t x).clampHost = s.clampHost := rfl
@[simp] theorem State.setStack_clampFw : (s.setStack t x).clampFw = s.clampFw := rfl
@[simp] theorem State.setStack_eol : (s.setStack t x).eol = s.eol := rfl
@[simp] theorem State.setStack_ageing : (s.setStack t x).ageing = s.ageing := rfl
@[simp] theorem State.setStack_slow : (s.setStack t x).slow = s.slow := rfl
@[simp] theorem State.setStack_gated : (s.setStack t x).gated = s.gated := rfl
@[simp] theorem State.setStack_veldDelay : (s.setStack t x).veldDelay = s.veldDelay := rfl
@[simp] theorem State.setStack_linksDown : (s.setStack t x).linksDown = s.linksDown := rfl
@[simp] theorem State.setStack_linkOff : (s.setStack t x).linkOff = s.linkOff := rfl
@[simp] theorem State.setStack_linkFlits : (s.setStack t x).linkFlits = s.linkFlits := rfl
@[simp] theorem State.setStack_held : (s.setStack t x).held = s.held := rfl
@[simp] theorem State.setStack_out : (s.setStack t x).out = s.out := rfl
@[simp] theorem State.setStack_time : (s.setStack t x).time = s.time := rfl
@[simp] theorem State.setStack_clock : (s.setStack t x).clock = s.clock := rfl
@[simp] theorem State.setStack_ticks : (s.setStack t x).ticks = s.ticks := rfl
@[simp] theorem State.setStack_resetTick : (s.setStack t x).resetTick = s.resetTick := rfl
@[simp] theorem State.setStack_fresh : (s.setStack t x).fresh = s.fresh := rfl
@[simp] theorem State.setStack_agent : (s.setStack t x).agent = s.agent := rfl
@[simp] theorem State.setStack_sched : (s.setStack t x).sched = s.sched := rfl
@[simp] theorem State.setStack_cutAt : (s.setStack t x).cutAt = s.cutAt := rfl
@[simp] theorem State.setStack_posting : (s.setStack t x).posting = s.posting := rfl
end setStack

section setCtx
variable (s : State) (c : Nat) (x : Context)
@[simp] theorem State.setCtx_harts : (s.setCtx c x).harts = s.harts := rfl
@[simp] theorem State.setCtx_cores : (s.setCtx c x).cores = s.cores := rfl
@[simp] theorem State.setCtx_stacks : (s.setCtx c x).stks = s.stks := rfl
@[simp] theorem State.setCtx_mem : (s.setCtx c x).mem = s.mem := rfl
@[simp] theorem State.setCtx_poison : (s.setCtx c x).poison = s.poison := rfl
@[simp] theorem State.setCtx_lost : (s.setCtx c x).lost = s.lost := rfl
@[simp] theorem State.setCtx_keyIds : (s.setCtx c x).keyIds = s.keyIds := rfl
@[simp] theorem State.setCtx_tags : (s.setCtx c x).tags = s.tags := rfl
@[simp] theorem State.setCtx_softErr : (s.setCtx c x).softErr = s.softErr := rfl
@[simp] theorem State.setCtx_stale : (s.setCtx c x).stale = s.stale := rfl
@[simp] theorem State.setCtx_hostLines : (s.setCtx c x).hostLines = s.hostLines := rfl
@[simp] theorem State.setCtx_winParts : (s.setCtx c x).winParts = s.winParts := rfl
@[simp] theorem State.setCtx_latAcc : (s.setCtx c x).latAcc = s.latAcc := rfl
@[simp] theorem State.setCtx_ttl : (s.setCtx c x).ttl = s.ttl := rfl
@[simp] theorem State.setCtx_keys : (s.setCtx c x).keys = s.keys := rfl
@[simp] theorem State.setCtx_timelines : (s.setCtx c x).timelines = s.timelines := rfl
@[simp] theorem State.setCtx_nodes : (s.setCtx c x).nodes = s.nodes := rfl
@[simp] theorem State.setCtx_graphs : (s.setCtx c x).graphs = s.graphs := rfl
@[simp] theorem State.setCtx_bands : (s.setCtx c x).bands = s.bands := rfl
@[simp] theorem State.setCtx_reqs : (s.setCtx c x).reqs = s.reqs := rfl
@[simp] theorem State.setCtx_served : (s.setCtx c x).served = s.served := rfl
@[simp] theorem State.setCtx_seqNo : (s.setCtx c x).seqNo = s.seqNo := rfl
@[simp] theorem State.setCtx_refusals : (s.setCtx c x).refusals = s.refusals := rfl
@[simp] theorem State.setCtx_xlines : (s.setCtx c x).xlines = s.xlines := rfl
@[simp] theorem State.setCtx_xsent : (s.setCtx c x).xsent = s.xsent := rfl
@[simp] theorem State.setCtx_arriving : (s.setCtx c x).arriving = s.arriving := rfl
@[simp] theorem State.setCtx_crewStops : (s.setCtx c x).crewStops = s.crewStops := rfl
@[simp] theorem State.setCtx_ports : (s.setCtx c x).ports = s.ports := rfl
@[simp] theorem State.setCtx_xsched : (s.setCtx c x).xsched = s.xsched := rfl
@[simp] theorem State.setCtx_xschedNow : (s.setCtx c x).xschedNow = s.xschedNow := rfl
@[simp] theorem State.setCtx_round : (s.setCtx c x).round = s.round := rfl
@[simp] theorem State.setCtx_roundBase : (s.setCtx c x).roundBase = s.roundBase := rfl
@[simp] theorem State.setCtx_roundTime : (s.setCtx c x).roundTime = s.roundTime := rfl
@[simp] theorem State.setCtx_life : (s.setCtx c x).life = s.life := rfl
@[simp] theorem State.setCtx_fuse : (s.setCtx c x).fuse = s.fuse := rfl
@[simp] theorem State.setCtx_fuseNew : (s.setCtx c x).fuseNew = s.fuseNew := rfl
@[simp] theorem State.setCtx_sdp : (s.setCtx c x).sdp = s.sdp := rfl
@[simp] theorem State.setCtx_mbarg : (s.setCtx c x).mbarg = s.mbarg := rfl
@[simp] theorem State.setCtx_mbcmd : (s.setCtx c x).mbcmd = s.mbcmd := rfl
@[simp] theorem State.setCtx_mbstat : (s.setCtx c x).mbstat = s.mbstat := rfl
@[simp] theorem State.setCtx_clampHost : (s.setCtx c x).clampHost = s.clampHost := rfl
@[simp] theorem State.setCtx_clampFw : (s.setCtx c x).clampFw = s.clampFw := rfl
@[simp] theorem State.setCtx_eol : (s.setCtx c x).eol = s.eol := rfl
@[simp] theorem State.setCtx_ageing : (s.setCtx c x).ageing = s.ageing := rfl
@[simp] theorem State.setCtx_slow : (s.setCtx c x).slow = s.slow := rfl
@[simp] theorem State.setCtx_gated : (s.setCtx c x).gated = s.gated := rfl
@[simp] theorem State.setCtx_veldDelay : (s.setCtx c x).veldDelay = s.veldDelay := rfl
@[simp] theorem State.setCtx_linksDown : (s.setCtx c x).linksDown = s.linksDown := rfl
@[simp] theorem State.setCtx_linkOff : (s.setCtx c x).linkOff = s.linkOff := rfl
@[simp] theorem State.setCtx_linkFlits : (s.setCtx c x).linkFlits = s.linkFlits := rfl
@[simp] theorem State.setCtx_held : (s.setCtx c x).held = s.held := rfl
@[simp] theorem State.setCtx_out : (s.setCtx c x).out = s.out := rfl
@[simp] theorem State.setCtx_time : (s.setCtx c x).time = s.time := rfl
@[simp] theorem State.setCtx_clock : (s.setCtx c x).clock = s.clock := rfl
@[simp] theorem State.setCtx_ticks : (s.setCtx c x).ticks = s.ticks := rfl
@[simp] theorem State.setCtx_resetTick : (s.setCtx c x).resetTick = s.resetTick := rfl
@[simp] theorem State.setCtx_fresh : (s.setCtx c x).fresh = s.fresh := rfl
@[simp] theorem State.setCtx_agent : (s.setCtx c x).agent = s.agent := rfl
@[simp] theorem State.setCtx_sched : (s.setCtx c x).sched = s.sched := rfl
@[simp] theorem State.setCtx_cutAt : (s.setCtx c x).cutAt = s.cutAt := rfl
@[simp] theorem State.setCtx_posting : (s.setCtx c x).posting = s.posting := rfl
end setCtx

section modTl
variable (s : State) (k : Nat) (f : Timeline → Timeline)
@[simp] theorem State.modTl_harts : (s.modTl k f).harts = s.harts := rfl
@[simp] theorem State.modTl_cores : (s.modTl k f).cores = s.cores := rfl
@[simp] theorem State.modTl_stacks : (s.modTl k f).stks = s.stks := rfl
@[simp] theorem State.modTl_ctxs : (s.modTl k f).ctxs = s.ctxs := rfl
@[simp] theorem State.modTl_mem : (s.modTl k f).mem = s.mem := rfl
@[simp] theorem State.modTl_poison : (s.modTl k f).poison = s.poison := rfl
@[simp] theorem State.modTl_lost : (s.modTl k f).lost = s.lost := rfl
@[simp] theorem State.modTl_keyIds : (s.modTl k f).keyIds = s.keyIds := rfl
@[simp] theorem State.modTl_tags : (s.modTl k f).tags = s.tags := rfl
@[simp] theorem State.modTl_softErr : (s.modTl k f).softErr = s.softErr := rfl
@[simp] theorem State.modTl_stale : (s.modTl k f).stale = s.stale := rfl
@[simp] theorem State.modTl_hostLines : (s.modTl k f).hostLines = s.hostLines := rfl
@[simp] theorem State.modTl_winParts : (s.modTl k f).winParts = s.winParts := rfl
@[simp] theorem State.modTl_latAcc : (s.modTl k f).latAcc = s.latAcc := rfl
@[simp] theorem State.modTl_ttl : (s.modTl k f).ttl = s.ttl := rfl
@[simp] theorem State.modTl_keys : (s.modTl k f).keys = s.keys := rfl
@[simp] theorem State.modTl_nodes : (s.modTl k f).nodes = s.nodes := rfl
@[simp] theorem State.modTl_graphs : (s.modTl k f).graphs = s.graphs := rfl
@[simp] theorem State.modTl_bands : (s.modTl k f).bands = s.bands := rfl
@[simp] theorem State.modTl_reqs : (s.modTl k f).reqs = s.reqs := rfl
@[simp] theorem State.modTl_served : (s.modTl k f).served = s.served := rfl
@[simp] theorem State.modTl_seqNo : (s.modTl k f).seqNo = s.seqNo := rfl
@[simp] theorem State.modTl_refusals : (s.modTl k f).refusals = s.refusals := rfl
@[simp] theorem State.modTl_xlines : (s.modTl k f).xlines = s.xlines := rfl
@[simp] theorem State.modTl_xsent : (s.modTl k f).xsent = s.xsent := rfl
@[simp] theorem State.modTl_arriving : (s.modTl k f).arriving = s.arriving := rfl
@[simp] theorem State.modTl_crewStops : (s.modTl k f).crewStops = s.crewStops := rfl
@[simp] theorem State.modTl_ports : (s.modTl k f).ports = s.ports := rfl
@[simp] theorem State.modTl_xsched : (s.modTl k f).xsched = s.xsched := rfl
@[simp] theorem State.modTl_xschedNow : (s.modTl k f).xschedNow = s.xschedNow := rfl
@[simp] theorem State.modTl_round : (s.modTl k f).round = s.round := rfl
@[simp] theorem State.modTl_roundBase : (s.modTl k f).roundBase = s.roundBase := rfl
@[simp] theorem State.modTl_roundTime : (s.modTl k f).roundTime = s.roundTime := rfl
@[simp] theorem State.modTl_life : (s.modTl k f).life = s.life := rfl
@[simp] theorem State.modTl_fuse : (s.modTl k f).fuse = s.fuse := rfl
@[simp] theorem State.modTl_fuseNew : (s.modTl k f).fuseNew = s.fuseNew := rfl
@[simp] theorem State.modTl_sdp : (s.modTl k f).sdp = s.sdp := rfl
@[simp] theorem State.modTl_mbarg : (s.modTl k f).mbarg = s.mbarg := rfl
@[simp] theorem State.modTl_mbcmd : (s.modTl k f).mbcmd = s.mbcmd := rfl
@[simp] theorem State.modTl_mbstat : (s.modTl k f).mbstat = s.mbstat := rfl
@[simp] theorem State.modTl_clampHost : (s.modTl k f).clampHost = s.clampHost := rfl
@[simp] theorem State.modTl_clampFw : (s.modTl k f).clampFw = s.clampFw := rfl
@[simp] theorem State.modTl_eol : (s.modTl k f).eol = s.eol := rfl
@[simp] theorem State.modTl_ageing : (s.modTl k f).ageing = s.ageing := rfl
@[simp] theorem State.modTl_slow : (s.modTl k f).slow = s.slow := rfl
@[simp] theorem State.modTl_gated : (s.modTl k f).gated = s.gated := rfl
@[simp] theorem State.modTl_veldDelay : (s.modTl k f).veldDelay = s.veldDelay := rfl
@[simp] theorem State.modTl_linksDown : (s.modTl k f).linksDown = s.linksDown := rfl
@[simp] theorem State.modTl_linkOff : (s.modTl k f).linkOff = s.linkOff := rfl
@[simp] theorem State.modTl_linkFlits : (s.modTl k f).linkFlits = s.linkFlits := rfl
@[simp] theorem State.modTl_held : (s.modTl k f).held = s.held := rfl
@[simp] theorem State.modTl_out : (s.modTl k f).out = s.out := rfl
@[simp] theorem State.modTl_time : (s.modTl k f).time = s.time := rfl
@[simp] theorem State.modTl_clock : (s.modTl k f).clock = s.clock := rfl
@[simp] theorem State.modTl_ticks : (s.modTl k f).ticks = s.ticks := rfl
@[simp] theorem State.modTl_resetTick : (s.modTl k f).resetTick = s.resetTick := rfl
@[simp] theorem State.modTl_fresh : (s.modTl k f).fresh = s.fresh := rfl
@[simp] theorem State.modTl_agent : (s.modTl k f).agent = s.agent := rfl
@[simp] theorem State.modTl_sched : (s.modTl k f).sched = s.sched := rfl
@[simp] theorem State.modTl_cutAt : (s.modTl k f).cutAt = s.cutAt := rfl
@[simp] theorem State.modTl_posting : (s.modTl k f).posting = s.posting := rfl
end modTl

section putByte
variable (s : State) (a : Nat) (b : Byte)
@[simp] theorem State.putByte_harts : (s.putByte a b).harts = s.harts := rfl
@[simp] theorem State.putByte_cores : (s.putByte a b).cores = s.cores := rfl
@[simp] theorem State.putByte_stacks : (s.putByte a b).stks = s.stks := rfl
@[simp] theorem State.putByte_ctxs : (s.putByte a b).ctxs = s.ctxs := rfl
@[simp] theorem State.putByte_poison : (s.putByte a b).poison = s.poison := rfl
@[simp] theorem State.putByte_lost : (s.putByte a b).lost = s.lost := rfl
@[simp] theorem State.putByte_keyIds : (s.putByte a b).keyIds = s.keyIds := rfl
@[simp] theorem State.putByte_tags : (s.putByte a b).tags = s.tags := rfl
@[simp] theorem State.putByte_softErr : (s.putByte a b).softErr = s.softErr := rfl
@[simp] theorem State.putByte_stale : (s.putByte a b).stale = s.stale := rfl
@[simp] theorem State.putByte_hostLines : (s.putByte a b).hostLines = s.hostLines := rfl
@[simp] theorem State.putByte_winParts : (s.putByte a b).winParts = s.winParts := rfl
@[simp] theorem State.putByte_latAcc : (s.putByte a b).latAcc = s.latAcc := rfl
@[simp] theorem State.putByte_ttl : (s.putByte a b).ttl = s.ttl := rfl
@[simp] theorem State.putByte_keys : (s.putByte a b).keys = s.keys := rfl
@[simp] theorem State.putByte_timelines : (s.putByte a b).timelines = s.timelines := rfl
@[simp] theorem State.putByte_nodes : (s.putByte a b).nodes = s.nodes := rfl
@[simp] theorem State.putByte_graphs : (s.putByte a b).graphs = s.graphs := rfl
@[simp] theorem State.putByte_bands : (s.putByte a b).bands = s.bands := rfl
@[simp] theorem State.putByte_reqs : (s.putByte a b).reqs = s.reqs := rfl
@[simp] theorem State.putByte_served : (s.putByte a b).served = s.served := rfl
@[simp] theorem State.putByte_seqNo : (s.putByte a b).seqNo = s.seqNo := rfl
@[simp] theorem State.putByte_refusals : (s.putByte a b).refusals = s.refusals := rfl
@[simp] theorem State.putByte_xlines : (s.putByte a b).xlines = s.xlines := rfl
@[simp] theorem State.putByte_xsent : (s.putByte a b).xsent = s.xsent := rfl
@[simp] theorem State.putByte_arriving : (s.putByte a b).arriving = s.arriving := rfl
@[simp] theorem State.putByte_crewStops : (s.putByte a b).crewStops = s.crewStops := rfl
@[simp] theorem State.putByte_ports : (s.putByte a b).ports = s.ports := rfl
@[simp] theorem State.putByte_xsched : (s.putByte a b).xsched = s.xsched := rfl
@[simp] theorem State.putByte_xschedNow : (s.putByte a b).xschedNow = s.xschedNow := rfl
@[simp] theorem State.putByte_round : (s.putByte a b).round = s.round := rfl
@[simp] theorem State.putByte_roundBase : (s.putByte a b).roundBase = s.roundBase := rfl
@[simp] theorem State.putByte_roundTime : (s.putByte a b).roundTime = s.roundTime := rfl
@[simp] theorem State.putByte_life : (s.putByte a b).life = s.life := rfl
@[simp] theorem State.putByte_fuse : (s.putByte a b).fuse = s.fuse := rfl
@[simp] theorem State.putByte_fuseNew : (s.putByte a b).fuseNew = s.fuseNew := rfl
@[simp] theorem State.putByte_sdp : (s.putByte a b).sdp = s.sdp := rfl
@[simp] theorem State.putByte_mbarg : (s.putByte a b).mbarg = s.mbarg := rfl
@[simp] theorem State.putByte_mbcmd : (s.putByte a b).mbcmd = s.mbcmd := rfl
@[simp] theorem State.putByte_mbstat : (s.putByte a b).mbstat = s.mbstat := rfl
@[simp] theorem State.putByte_clampHost : (s.putByte a b).clampHost = s.clampHost := rfl
@[simp] theorem State.putByte_clampFw : (s.putByte a b).clampFw = s.clampFw := rfl
@[simp] theorem State.putByte_eol : (s.putByte a b).eol = s.eol := rfl
@[simp] theorem State.putByte_ageing : (s.putByte a b).ageing = s.ageing := rfl
@[simp] theorem State.putByte_slow : (s.putByte a b).slow = s.slow := rfl
@[simp] theorem State.putByte_gated : (s.putByte a b).gated = s.gated := rfl
@[simp] theorem State.putByte_veldDelay : (s.putByte a b).veldDelay = s.veldDelay := rfl
@[simp] theorem State.putByte_linksDown : (s.putByte a b).linksDown = s.linksDown := rfl
@[simp] theorem State.putByte_linkOff : (s.putByte a b).linkOff = s.linkOff := rfl
@[simp] theorem State.putByte_linkFlits : (s.putByte a b).linkFlits = s.linkFlits := rfl
@[simp] theorem State.putByte_held : (s.putByte a b).held = s.held := rfl
@[simp] theorem State.putByte_out : (s.putByte a b).out = s.out := rfl
@[simp] theorem State.putByte_time : (s.putByte a b).time = s.time := rfl
@[simp] theorem State.putByte_clock : (s.putByte a b).clock = s.clock := rfl
@[simp] theorem State.putByte_ticks : (s.putByte a b).ticks = s.ticks := rfl
@[simp] theorem State.putByte_resetTick : (s.putByte a b).resetTick = s.resetTick := rfl
@[simp] theorem State.putByte_fresh : (s.putByte a b).fresh = s.fresh := rfl
@[simp] theorem State.putByte_agent : (s.putByte a b).agent = s.agent := rfl
@[simp] theorem State.putByte_sched : (s.putByte a b).sched = s.sched := rfl
@[simp] theorem State.putByte_cutAt : (s.putByte a b).cutAt = s.cutAt := rfl
@[simp] theorem State.putByte_posting : (s.putByte a b).posting = s.posting := rfl
end putByte

section setPoison
variable (s : State) (p : Nat) (b : Bool)
@[simp] theorem State.setPoison_harts : (s.setPoison p b).harts = s.harts := rfl
@[simp] theorem State.setPoison_cores : (s.setPoison p b).cores = s.cores := rfl
@[simp] theorem State.setPoison_stacks : (s.setPoison p b).stks = s.stks := rfl
@[simp] theorem State.setPoison_ctxs : (s.setPoison p b).ctxs = s.ctxs := rfl
@[simp] theorem State.setPoison_mem : (s.setPoison p b).mem = s.mem := rfl
@[simp] theorem State.setPoison_lost : (s.setPoison p b).lost = if b then s.lost else tdel s.lost p := rfl
@[simp] theorem State.setPoison_keyIds : (s.setPoison p b).keyIds = s.keyIds := rfl
@[simp] theorem State.setPoison_tags : (s.setPoison p b).tags = s.tags := rfl
@[simp] theorem State.setPoison_softErr : (s.setPoison p b).softErr = s.softErr := rfl
@[simp] theorem State.setPoison_stale : (s.setPoison p b).stale = s.stale := rfl
@[simp] theorem State.setPoison_hostLines : (s.setPoison p b).hostLines = s.hostLines := rfl
@[simp] theorem State.setPoison_winParts : (s.setPoison p b).winParts = s.winParts := rfl
@[simp] theorem State.setPoison_latAcc : (s.setPoison p b).latAcc = s.latAcc := rfl
@[simp] theorem State.setPoison_ttl : (s.setPoison p b).ttl = s.ttl := rfl
@[simp] theorem State.setPoison_keys : (s.setPoison p b).keys = s.keys := rfl
@[simp] theorem State.setPoison_timelines : (s.setPoison p b).timelines = s.timelines := rfl
@[simp] theorem State.setPoison_nodes : (s.setPoison p b).nodes = s.nodes := rfl
@[simp] theorem State.setPoison_graphs : (s.setPoison p b).graphs = s.graphs := rfl
@[simp] theorem State.setPoison_bands : (s.setPoison p b).bands = s.bands := rfl
@[simp] theorem State.setPoison_reqs : (s.setPoison p b).reqs = s.reqs := rfl
@[simp] theorem State.setPoison_served : (s.setPoison p b).served = s.served := rfl
@[simp] theorem State.setPoison_seqNo : (s.setPoison p b).seqNo = s.seqNo := rfl
@[simp] theorem State.setPoison_refusals : (s.setPoison p b).refusals = s.refusals := rfl
@[simp] theorem State.setPoison_xlines : (s.setPoison p b).xlines = s.xlines := rfl
@[simp] theorem State.setPoison_xsent : (s.setPoison p b).xsent = s.xsent := rfl
@[simp] theorem State.setPoison_arriving : (s.setPoison p b).arriving = s.arriving := rfl
@[simp] theorem State.setPoison_crewStops : (s.setPoison p b).crewStops = s.crewStops := rfl
@[simp] theorem State.setPoison_ports : (s.setPoison p b).ports = s.ports := rfl
@[simp] theorem State.setPoison_xsched : (s.setPoison p b).xsched = s.xsched := rfl
@[simp] theorem State.setPoison_xschedNow : (s.setPoison p b).xschedNow = s.xschedNow := rfl
@[simp] theorem State.setPoison_round : (s.setPoison p b).round = s.round := rfl
@[simp] theorem State.setPoison_roundBase : (s.setPoison p b).roundBase = s.roundBase := rfl
@[simp] theorem State.setPoison_roundTime : (s.setPoison p b).roundTime = s.roundTime := rfl
@[simp] theorem State.setPoison_life : (s.setPoison p b).life = s.life := rfl
@[simp] theorem State.setPoison_fuse : (s.setPoison p b).fuse = s.fuse := rfl
@[simp] theorem State.setPoison_fuseNew : (s.setPoison p b).fuseNew = s.fuseNew := rfl
@[simp] theorem State.setPoison_sdp : (s.setPoison p b).sdp = s.sdp := rfl
@[simp] theorem State.setPoison_mbarg : (s.setPoison p b).mbarg = s.mbarg := rfl
@[simp] theorem State.setPoison_mbcmd : (s.setPoison p b).mbcmd = s.mbcmd := rfl
@[simp] theorem State.setPoison_mbstat : (s.setPoison p b).mbstat = s.mbstat := rfl
@[simp] theorem State.setPoison_clampHost : (s.setPoison p b).clampHost = s.clampHost := rfl
@[simp] theorem State.setPoison_clampFw : (s.setPoison p b).clampFw = s.clampFw := rfl
@[simp] theorem State.setPoison_eol : (s.setPoison p b).eol = s.eol := rfl
@[simp] theorem State.setPoison_ageing : (s.setPoison p b).ageing = s.ageing := rfl
@[simp] theorem State.setPoison_slow : (s.setPoison p b).slow = s.slow := rfl
@[simp] theorem State.setPoison_gated : (s.setPoison p b).gated = s.gated := rfl
@[simp] theorem State.setPoison_veldDelay : (s.setPoison p b).veldDelay = s.veldDelay := rfl
@[simp] theorem State.setPoison_linksDown : (s.setPoison p b).linksDown = s.linksDown := rfl
@[simp] theorem State.setPoison_linkOff : (s.setPoison p b).linkOff = s.linkOff := rfl
@[simp] theorem State.setPoison_linkFlits : (s.setPoison p b).linkFlits = s.linkFlits := rfl
@[simp] theorem State.setPoison_held : (s.setPoison p b).held = s.held := rfl
@[simp] theorem State.setPoison_out : (s.setPoison p b).out = s.out := rfl
@[simp] theorem State.setPoison_time : (s.setPoison p b).time = s.time := rfl
@[simp] theorem State.setPoison_clock : (s.setPoison p b).clock = s.clock := rfl
@[simp] theorem State.setPoison_ticks : (s.setPoison p b).ticks = s.ticks := rfl
@[simp] theorem State.setPoison_resetTick : (s.setPoison p b).resetTick = s.resetTick := rfl
@[simp] theorem State.setPoison_fresh : (s.setPoison p b).fresh = s.fresh := rfl
@[simp] theorem State.setPoison_agent : (s.setPoison p b).agent = s.agent := rfl
@[simp] theorem State.setPoison_sched : (s.setPoison p b).sched = s.sched := rfl
@[simp] theorem State.setPoison_cutAt : (s.setPoison p b).cutAt = s.cutAt := rfl
@[simp] theorem State.setPoison_posting : (s.setPoison p b).posting = s.posting := rfl
end setPoison

/-- Reading what was written. -/
@[simp] theorem State.hart_setHart_same (s : State) (k : Nat) (x : Hart) : (s.setHart k x).hart k = x :=
  tget_tput_same _ _ _ _
/-- Another one is as it was. -/
@[simp] theorem State.hart_setHart_ne (s : State) (x : Hart) {j k : Nat} (h : j ≠ k) : (s.setHart k x).hart j = s.hart j :=
  tget_tput_ne _ _ _ _ h
/-- A change is a write of the changed value. -/
theorem State.modHart_eq (s : State) (k : Nat) (f : Hart → Hart) : s.modHart k f = s.setHart k (f (s.hart k)) := rfl
/-- Reading what was changed. -/
@[simp] theorem State.hart_modHart_same (s : State) (k : Nat) (f : Hart → Hart) : (s.modHart k f).hart k = f (s.hart k) :=
  tget_tput_same _ _ _ _
/-- Another one is as it was. -/
@[simp] theorem State.hart_modHart_ne (s : State) (f : Hart → Hart) {j k : Nat} (h : j ≠ k) :
    (s.modHart k f).hart j = s.hart j := tget_tput_ne _ _ _ _ h

/-- Reading what was written. -/
@[simp] theorem State.core_setCore_same (s : State) (k : Nat) (x : Core) : (s.setCore k x).core k = x :=
  tget_tput_same _ _ _ _
/-- Another one is as it was. -/
@[simp] theorem State.core_setCore_ne (s : State) (x : Core) {j k : Nat} (h : j ≠ k) : (s.setCore k x).core j = s.core j :=
  tget_tput_ne _ _ _ _ h
/-- A change is a write of the changed value. -/
theorem State.modCore_eq (s : State) (k : Nat) (f : Core → Core) : s.modCore k f = s.setCore k (f (s.core k)) := rfl
/-- Reading what was changed. -/
@[simp] theorem State.core_modCore_same (s : State) (k : Nat) (f : Core → Core) : (s.modCore k f).core k = f (s.core k) :=
  tget_tput_same _ _ _ _
/-- Another one is as it was. -/
@[simp] theorem State.core_modCore_ne (s : State) (f : Core → Core) {j k : Nat} (h : j ≠ k) :
    (s.modCore k f).core j = s.core j := tget_tput_ne _ _ _ _ h

/-- Reading what was written. -/
@[simp] theorem State.stack_setStack_same (s : State) (k : Nat) (x : Stack) : (s.setStack k x).stack k = x :=
  tget_tput_same _ _ _ _
/-- Another one is as it was. -/
@[simp] theorem State.stack_setStack_ne (s : State) (x : Stack) {j k : Nat} (h : j ≠ k) : (s.setStack k x).stack j = s.stack j :=
  tget_tput_ne _ _ _ _ h
/-- A change is a write of the changed value. -/
theorem State.modStack_eq (s : State) (k : Nat) (f : Stack → Stack) : s.modStack k f = s.setStack k (f (s.stack k)) := rfl
/-- Reading what was changed. -/
@[simp] theorem State.stack_modStack_same (s : State) (k : Nat) (f : Stack → Stack) : (s.modStack k f).stack k = f (s.stack k) :=
  tget_tput_same _ _ _ _
/-- Another one is as it was. -/
@[simp] theorem State.stack_modStack_ne (s : State) (f : Stack → Stack) {j k : Nat} (h : j ≠ k) :
    (s.modStack k f).stack j = s.stack j := tget_tput_ne _ _ _ _ h

/-- Reading what was written. -/
@[simp] theorem State.ctx_setCtx_same (s : State) (k : Nat) (x : Context) : (s.setCtx k x).ctx k = x :=
  tget_tput_same _ _ _ _
/-- Another one is as it was. -/
@[simp] theorem State.ctx_setCtx_ne (s : State) (x : Context) {j k : Nat} (h : j ≠ k) : (s.setCtx k x).ctx j = s.ctx j :=
  tget_tput_ne _ _ _ _ h
/-- A change is a write of the changed value. -/
theorem State.modCtx_eq (s : State) (k : Nat) (f : Context → Context) : s.modCtx k f = s.setCtx k (f (s.ctx k)) := rfl
/-- Reading what was changed. -/
@[simp] theorem State.ctx_modCtx_same (s : State) (k : Nat) (f : Context → Context) : (s.modCtx k f).ctx k = f (s.ctx k) :=
  tget_tput_same _ _ _ _
/-- Another one is as it was. -/
@[simp] theorem State.ctx_modCtx_ne (s : State) (f : Context → Context) {j k : Nat} (h : j ≠ k) :
    (s.modCtx k f).ctx j = s.ctx j := tget_tput_ne _ _ _ _ h

@[simp] theorem State.core_setHart (s : State) (k : Nat) (x : Hart) (j : Nat) : (s.setHart k x).core j = s.core j := rfl
@[simp] theorem State.stack_setHart (s : State) (k : Nat) (x : Hart) (j : Nat) : (s.setHart k x).stack j = s.stack j := rfl
@[simp] theorem State.ctx_setHart (s : State) (k : Nat) (x : Hart) (j : Nat) : (s.setHart k x).ctx j = s.ctx j := rfl
@[simp] theorem State.hart_setCore (s : State) (k : Nat) (x : Core) (j : Nat) : (s.setCore k x).hart j = s.hart j := rfl
@[simp] theorem State.stack_setCore (s : State) (k : Nat) (x : Core) (j : Nat) : (s.setCore k x).stack j = s.stack j := rfl
@[simp] theorem State.ctx_setCore (s : State) (k : Nat) (x : Core) (j : Nat) : (s.setCore k x).ctx j = s.ctx j := rfl
@[simp] theorem State.hart_setStack (s : State) (k : Nat) (x : Stack) (j : Nat) : (s.setStack k x).hart j = s.hart j := rfl
@[simp] theorem State.core_setStack (s : State) (k : Nat) (x : Stack) (j : Nat) : (s.setStack k x).core j = s.core j := rfl
@[simp] theorem State.ctx_setStack (s : State) (k : Nat) (x : Stack) (j : Nat) : (s.setStack k x).ctx j = s.ctx j := rfl
@[simp] theorem State.hart_setCtx (s : State) (k : Nat) (x : Context) (j : Nat) : (s.setCtx k x).hart j = s.hart j := rfl
@[simp] theorem State.core_setCtx (s : State) (k : Nat) (x : Context) (j : Nat) : (s.setCtx k x).core j = s.core j := rfl
@[simp] theorem State.stack_setCtx (s : State) (k : Nat) (x : Context) (j : Nat) : (s.setCtx k x).stack j = s.stack j := rfl

/-- Every hart but one reads as it did after a change of that one. -/
theorem State.hart_modHart (s : State) (k j : Nat) (f : Hart → Hart) :
    (s.modHart k f).hart j = if j = k then f (s.hart k) else s.hart j := by
  by_cases h : j = k
  · subst h; simp
  · simp [h]

/-- A byte that was stored reads back (R5). -/
@[simp] theorem State.byteAt_putByte_same (s : State) (a : Nat) (b : Byte) : (s.putByte a b).byteAt a = b :=
  tget_tput_same _ _ _ _
/-- A store of one byte leaves every other byte. -/
@[simp] theorem State.byteAt_putByte_ne (s : State) (b : Byte) {a c : Nat} (h : c ≠ a) :
    (s.putByte a b).byteAt c = s.byteAt c := tget_tput_ne _ _ _ _ h

section wr
variable (x : Hart) (n : SReg) (v : W)
@[simp] theorem Hart.wr_live : (x.wr n v).live = x.live := rfl
@[simp] theorem Hart.wr_cid : (x.wr n v).cid = x.cid := rfl
@[simp] theorem Hart.wr_band : (x.wr n v).band = x.band := rfl
@[simp] theorem Hart.wr_pc : (x.wr n v).pc = x.pc := rfl
@[simp] theorem Hart.wr_nh : (x.wr n v).nh = x.nh := rfl
@[simp] theorem Hart.wr_v : (x.wr n v).v = x.v := rfl
@[simp] theorem Hart.wr_k : (x.wr n v).k = x.k := rfl
@[simp] theorem Hart.wr_vtype : (x.wr n v).vtype = x.vtype := rfl
@[simp] theorem Hart.wr_vl : (x.wr n v).vl = x.vl := rfl
@[simp] theorem Hart.wr_cur : (x.wr n v).cur = x.cur := rfl
@[simp] theorem Hart.wr_next : (x.wr n v).next = x.next := rfl
@[simp] theorem Hart.wr_req : (x.wr n v).req = x.req := rfl
@[simp] theorem Hart.wr_rcl : (x.wr n v).rcl = x.rcl := rfl
@[simp] theorem Hart.wr_mfc : (x.wr n v).mfc = x.mfc := rfl
@[simp] theorem Hart.wr_fxrm : (x.wr n v).fxrm = x.fxrm := rfl
@[simp] theorem Hart.wr_satf : (x.wr n v).satf = x.satf := rfl
@[simp] theorem Hart.wr_fflags : (x.wr n v).fflags = x.fflags := rfl
@[simp] theorem Hart.wr_hstat : (x.wr n v).hstat = x.hstat := rfl
@[simp] theorem Hart.wr_tcause : (x.wr n v).tcause = x.tcause := rfl
@[simp] theorem Hart.wr_tval : (x.wr n v).tval = x.tval := rfl
@[simp] theorem Hart.wr_tepc : (x.wr n v).tepc = x.tepc := rfl
@[simp] theorem Hart.wr_tstat : (x.wr n v).tstat = x.tstat := rfl
@[simp] theorem Hart.wr_tidx : (x.wr n v).tidx = x.tidx := rfl
@[simp] theorem Hart.wr_crewid : (x.wr n v).crewid = x.crewid := rfl
@[simp] theorem Hart.wr_bandid : (x.wr n v).bandid = x.bandid := rfl
@[simp] theorem Hart.wr_nodeid : (x.wr n v).nodeid = x.nodeid := rfl
@[simp] theorem Hart.wr_ltmo : (x.wr n v).ltmo = x.ltmo := rfl
@[simp] theorem Hart.wr_image : (x.wr n v).image = x.image := rfl
@[simp] theorem Hart.wr_resumePc : (x.wr n v).resumePc = x.resumePc := rfl
@[simp] theorem Hart.wr_mframe : (x.wr n v).mframe = x.mframe := rfl
@[simp] theorem Hart.wr_mentry : (x.wr n v).mentry = x.mentry := rfl
@[simp] theorem Hart.wr_streams : (x.wr n v).streams = x.streams := rfl
@[simp] theorem Hart.wr_popped : (x.wr n v).popped = x.popped := rfl
@[simp] theorem Hart.wr_vq : (x.wr n v).vq = x.vq := rfl
@[simp] theorem Hart.wr_wait : (x.wr n v).wait = x.wait := rfl
@[simp] theorem Hart.wr_ncbar : (x.wr n v).ncbar = x.ncbar := rfl
@[simp] theorem Hart.wr_nbbar : (x.wr n v).nbbar = x.nbbar := rfl
@[simp] theorem Hart.wr_cpass : (x.wr n v).cpass = x.cpass := rfl
@[simp] theorem Hart.wr_bpass : (x.wr n v).bpass = x.bpass := rfl
@[simp] theorem Hart.wr_pend : (x.wr n v).pend = x.pend := rfl
@[simp] theorem Hart.wr_owed : (x.wr n v).owed = x.owed := rfl
@[simp] theorem Hart.wr_ilines : (x.wr n v).ilines = x.ilines := rfl
@[simp] theorem Hart.wr_lockTraps : (x.wr n v).lockTraps = x.lockTraps := rfl
@[simp] theorem Hart.wr_vecNo : (x.wr n v).vecNo = x.vecNo := rfl
@[simp] theorem Hart.wr_sv : (x.wr n v).sv = x.sv := rfl
@[simp] theorem Hart.wr_vs : (x.wr n v).vs = x.vs := rfl
@[simp] theorem Hart.wr_colPend : (x.wr n v).colPend = x.colPend := rfl
@[simp] theorem Hart.wr_await : (x.wr n v).await = x.await := rfl
@[simp] theorem Hart.wr_retiredAt : (x.wr n v).retiredAt = x.retiredAt := rfl
end wr

/-- s0 reads zero (R86). -/
@[simp] theorem rdS_zero (t : Tab W) : rdS t 0 = 0 := rfl
/-- A write to s0 is discarded (R86). -/
@[simp] theorem wrS_zero (t : Tab W) (v : W) : wrS t 0 v = t := rfl
/-- A written register reads back, s0 as zero (R86). -/
theorem Hart.rd_wr_same (x : Hart) (n : SReg) (v : W) : (x.wr n v).rd n = if n.val = 0 then 0 else v := by
  by_cases h : n.val = 0 <;> simp [Hart.rd, Hart.wr, rdS, wrS, h]
/-- A write leaves every other register. -/
@[simp] theorem Hart.rd_wr_ne (x : Hart) (v : W) {n m : SReg} (h : m ≠ n) : (x.wr n v).rd m = x.rd m := by
  have hv : m.val ≠ n.val := fun e => h (Fin.ext e)
  by_cases h0 : n.val = 0 <;> by_cases h1 : m.val = 0 <;> simp [Hart.rd, Hart.wr, rdS, wrS, h0, h1, hv]

end Sys2Proof.Machine
end

