-- ==== Sys2Proof/Laws/Mem.lean ====
section
/-! SUPPORT. The laws of memory: reading after writing, and the canonical form that every memory operation keeps. -/
namespace Sys2Proof.Machine

/-- Storing a byte keeps the canonical form. -/
theorem State.putByte_wf (s : State) (a : Nat) (b : Byte) (w : Memory.wf s.mem = true) :
    Memory.wf (s.putByte a b).mem = true :=
  twf_tput memDefault 0 s.mem a b (Nat.zero_le _) w

/-- Storing bytes changes memory alone. -/
theorem State.putBytes_only_mem (s : State) (a : Nat) (l : List Byte) :
    s.putBytes a l = { s with mem := (s.putBytes a l).mem } := by
  induction l generalizing s a with
  | nil => rfl
  | cons b r ih => rw [State.putBytes, ih (s.putByte a b) (a + 1)]; rfl

/-- Storing bytes keeps the canonical form. -/
theorem State.putBytes_wf (s : State) (a : Nat) (l : List Byte) (w : Memory.wf s.mem = true) :
    Memory.wf (s.putBytes a l).mem = true := by
  induction l generalizing s a with
  | nil => exact w
  | cons b r ih => exact ih _ _ (s.putByte_wf a b w)

/-- Storing a number keeps the canonical form. -/
theorem State.putNat_wf (s : State) (a n x : Nat) (w : Memory.wf s.mem = true) : Memory.wf (s.putNat a n x).mem = true :=
  s.putBytes_wf a _ w

/-- A byte outside the stored ones reads as before. -/
theorem State.byteAt_putBytes_out (s : State) (a k : Nat) (l : List Byte) (h : k < a ∨ a + l.length ≤ k) :
    (s.putBytes a l).byteAt k = s.byteAt k := by
  induction l generalizing s a with
  | nil => rfl
  | cons b r ih =>
    simp only [List.length_cons] at h
    rw [State.putBytes, ih _ _ (by omega), State.byteAt_putByte_ne _ _ (by omega)]

/-- Stored byte `i` reads back. -/
theorem State.byteAt_putBytes_in (s : State) (a i : Nat) (l : List Byte) (h : i < l.length) :
    (s.putBytes a l).byteAt (a + i) = l[i] := by
  induction l generalizing s a i with
  | nil => simp at h
  | cons b r ih =>
    cases i with
    | zero => rw [State.putBytes, State.byteAt_putBytes_out _ _ _ _ (by omega)]; simp
    | succ i =>
      have e : a + (i + 1) = a + 1 + i := by omega
      rw [State.putBytes, e, ih _ _ _ (by simpa using h)]
      simp

/-- A codeword whose data bits are not open keeps them (R349). -/
theorem reopen_plain {s : State} {p : Nat} (h : s.isLost p = false) : reopen s p = s := by simp [reopen, h]

/-- Free data bits keep the canonical form of memory. -/
theorem reopen_wf (s : State) (p : Nat) (w : Memory.wf s.mem = true) : Memory.wf (reopen s p).mem = true := by
  unfold reopen; split
  · exact State.putBytes_wf _ _ _ w
  · exact w

/-- Dropping bytes keeps the canonical form. -/
theorem Memory.filter_wf (p : Nat → Bool) (m : Tab Byte) (w : Memory.wf m = true) : Memory.wf (tfilter p m) = true :=
  twf_tfilter memDefault 0 p m w

end Sys2Proof.Machine
end

