-- ==== Sys2Proof/Laws/Ops.lean ====
section
/-! SUPPORT. What the shared operations can do: completion, stops, and what bodies of instructions keep. -/
namespace Sys2Proof.Machine

/-- What a state predicate needs of a body: it holds after it, completed or not. -/
def Keeps {α : Type} (P : State → Prop) (m : X α) : Prop :=
  ∀ s, P s → match m.run s with
    | .ok _ t => P t
    | .error _ t => P t

section Keeps
variable {α β : Type} {P : State → Prop}

theorem Keeps.pure (a : α) : Keeps P (Pure.pure a : X α) := fun _ h => h
theorem Keeps.throw (e : Stop) : Keeps P (throw e : X α) := fun _ h => h
theorem Keeps.get : Keeps P (MonadState.get : X State) := fun _ h => h
theorem Keeps.trap (c : Nat) (v : W) : Keeps P (trap c v : X α) := fun _ h => h
theorem Keeps.stall : Keeps P (stall : X α) := fun _ h => h

theorem Keeps.modify (f : State → State) (hf : ∀ s, P s → P (f s)) : Keeps P (modify f : X Unit) := fun s h => hf s h

theorem Keeps.bind {m : X α} {f : α → X β} (hm : Keeps P m) (hf : ∀ a, Keeps P (f a)) : Keeps P (m >>= f) := by
  intro s h
  have h1 := hm s h
  simp only [Bind.bind, EStateM.bind, EStateM.run] at h1 ⊢
  cases e : m s with
  | ok a t => rw [e] at h1; exact hf a t h1
  | error a t => rw [e] at h1; exact h1

theorem Keeps.ite {c : Prop} [Decidable c] {m n : X α} (hm : Keeps P m) (hn : Keeps P n) :
    Keeps P (if c then m else n) := by
  split <;> assumption

/-- A loop keeps what its body keeps. -/
theorem Keeps.eachFrom {f : Nat → X Unit} (hf : ∀ k, Keeps P (f k)) (lo n : Nat) : Keeps P (eachFrom f lo n) := by
  induction n generalizing lo with
  | zero => exact Keeps.pure ()
  | succ n ih => exact Keeps.bind (hf lo) (fun _ => ih (lo + 1))

/-- A loop over a list keeps what its body keeps. -/
theorem Keeps.eachOf {f : α → X Unit} (hf : ∀ a, Keeps P (f a)) (l : List α) : Keeps P (eachOf f l) := by
  induction l with
  | nil => exact Keeps.pure ()
  | cons a r ih => exact Keeps.bind (hf a) (fun _ => ih)

end Keeps

/-- Everything `finish` can answer with a next state. -/
theorem finish_cases {i : Instr} {vec : Bool} {post : State → State} {s0 : State}
    {r : EStateM.Result Stop State Unit} {t : State} (h : finish i vec post s0 r = .next t) :
    (∃ u, r = .ok () u ∧ t = post u) ∨
    (∃ c v k u, r = .error (.trap c v k) u ∧ t = if trapWaits s0 vec then s0 else raise u i vec c v k) ∨
    (∃ u, r = .error .stall u ∧ t = stalled s0 u i vec) ∨ (∃ n u, r = .error (.cut n) u ∧ t = cutStay u n) ∨
    (∃ c v u, r = .error (.fatal c v) u ∧ t = removeContext u (u.hart (agentHart u)).cid c v) := by
  unfold finish at h
  split at h <;> cases h
  · exact .inl ⟨_, rfl, rfl⟩
  · exact .inr (.inl ⟨_, _, _, _, rfl, rfl⟩)
  · exact .inr (.inr (.inl ⟨_, rfl, rfl⟩))
  · exact .inr (.inr (.inr (.inl ⟨_, _, rfl, rfl⟩)))
  · exact .inr (.inr (.inr (.inr ⟨_, _, _, rfl, rfl⟩)))

/-- A scalar instruction that stalls keeps what its body has noted of the wait. -/
@[simp] theorem stalled_scalar (s0 s : State) (i : Instr) : stalled s0 s i false = s := by
  unfold stalled; split <;> simp

/-- A hart that has posted no access gives up none, and none of its answers traps. -/
theorem forgo_none {s : State} {h : Nat} (e : (s.hart h).await = none) : forgo s h = s := by simp [forgo, e]
theorem answerTraps_none {s : State} {h : Nat} (e : (s.hart h).await = none) : answerTraps s h = false := by
  simp [answerTraps, awaited, e]

/-- Giving up a posted access changes nothing of the other harts. -/
theorem forgo_hart_ne {s : State} {h k : Nat} (n : k ≠ h) : (forgo s h).hart k = s.hart k := by
  unfold forgo
  split
  · rfl
  · simp only [State.modHart, State.hart_setHart_ne _ _ n]; rfl

/-- Every outcome of a body keeps what the operations behind it keep. -/
theorem finish_keeps {P : State → Prop} {i : Instr} {vec : Bool} {post : State → State} {m : X Unit} {s t : State}
    (hs : P s) (hm : Keeps P m) (hp : ∀ u, P u → P (post u)) (hr : ∀ u c v k, P u → P (raise u i vec c v k))
    (hl : ∀ u, P u → P (stalled s u i vec)) (hc : ∀ u n, P u → P (cutStay u n))
    (hx : ∀ u c v, P u → P (removeContext u (u.hart (agentHart u)).cid c v))
    (h : finish i vec post s (m.run s) = .next t) : P t := by
  have k := hm s hs
  obtain ⟨u, e, rfl⟩ | ⟨c, v, n, u, e, rfl⟩ | ⟨u, e, rfl⟩ | ⟨n, u, e, rfl⟩ | ⟨c, v, u, e, rfl⟩ := finish_cases h <;>
    rw [e] at k
  · exact hp _ k
  · split
    · exact hs
    · exact hr _ _ _ _ k
  · exact hl _ k
  · exact hc _ _ k
  · exact hx _ _ _ k

/-- A completed scalar instruction moves its hart past itself and changes nothing else. -/
theorem advance_hart {s : State} {h : Nat} (e : s.agent = .hart h) :
    advance s false = s.modHart h (fun x => { x with pc := nextPC x.pc x.nh, wait := none, retiredAt := s.clock }) := by
  simp [advance, e]

/-- A scalar instruction over one hart's registers completes: its effect on the hart, then the program counter. -/
theorem onHart_next {s : State} {h : Nat} (f : Hart → Hart) (e : s.agent = .hart h) :
    onHart s f = .next (advance (s.modHart h f) false) := by
  simp [onHart, e]

end Sys2Proof.Machine
end

