-- ==== Sys2Proof/Laws/PerInstr.lean ====
section
/-! SUPPORT. What holds of every instruction as syntax: its encoding fits the fields of a head and a tail. -/
namespace Sys2Proof

/-- A scope code has two bits (R94). -/
theorem Scope.code_lt (x : Scope) : x.code < 4 := by cases x <;> decide

/-- The second operand of an arithmetic tail keeps to bits 26 to 6 (R196). -/
theorem VSrc.enc_le (x : VSrc) : x.enc ≤ 83623936 := by
  cases x with
  | v r => have := r.isLt; simp only [VSrc.enc]; omega
  | s r => have := r.isLt; simp only [VSrc.enc]; omega
  | i m => have := m.isLt; simp only [VSrc.enc]; omega

/-- The format selection of a tail is FO and five bits. -/
theorem fmtEnc_le (f : FmtSel) (fo lo : Nat) : fmtEnc f fo lo ≤ 2 ^ fo + 31 * 2 ^ lo := by
  cases f with
  | none => exact Nat.zero_le _
  | some c => exact Nat.add_le_add_left (Nat.mul_le_mul_right _ (by have := c.isLt; omega)) _

/-- The tail fields of `VBin` fit. -/
theorem VBin.enc_lt (x : VBin) : x.enc < 4294967296 := by
  have := x.k.isLt
  have := x.z.toNat_le
  have := x.n.toNat_le
  have := x.src.enc_le
  have := x.a.isLt
  simp only [VBin.enc]; omega

/-- The tail fields of `VFma` fit. -/
theorem VFma.enc_lt (x : VFma) : x.enc < 4294967296 := by
  have := x.k.isLt
  have := x.z.toNat_le
  have := x.src.enc_le
  have := x.a.isLt
  have := x.c.isLt
  simp only [VFma.enc]; omega

/-- The tail fields of `VUn` fit. -/
theorem VUn.enc_lt (x : VUn) : x.enc < 4294967296 := by
  have := x.k.isLt
  have := x.z.toNat_le
  have := x.a.isLt
  simp only [VUn.enc]; omega

/-- The tail fields of `VCvt` fit. -/
theorem VCvt.enc_lt (x : VCvt) : x.enc < 4294967296 := by
  have := x.k.isLt
  have := x.z.toNat_le
  have := x.kind.isLt
  have := x.a.isLt
  simp only [VCvt.enc]; omega

/-- The tail fields of `VRed` fit. -/
theorem VRed.enc_lt (x : VRed) : x.enc < 4294967296 := by
  have := x.k.isLt
  have := x.n.toNat_le
  have := x.b.isLt
  have := x.a.isLt
  simp only [VRed.enc]; omega

/-- The tail fields of `VBcast` fit. -/
theorem VBcast.enc_lt (x : VBcast) : x.enc < 4294967296 := by
  have := x.k.isLt
  have := x.z.toNat_le
  have := x.src.enc_le
  simp only [VBcast.enc]; omega

/-- The tail fields of `VExt` fit. -/
theorem VExt.enc_lt (x : VExt) : x.enc < 4294967296 := by
  have := x.n.toNat_le
  have := x.src.enc_le
  have := x.a.isLt
  simp only [VExt.enc]; omega

/-- The tail fields of `VMem` fit. -/
theorem VMem.enc_lt (x : VMem) : x.enc < 4294967296 := by
  have := x.k.isLt
  have := x.z.toNat_le
  have := fmtEnc_le x.fmt 26 21
  have := x.nf.isLt
  have := x.c.isLt
  have := x.b.isLt
  have := x.a.isLt
  simp only [VMem.enc]; omega

/-- The tail fields of `VStrm` fit. -/
theorem VStrm.enc_lt (x : VStrm) : x.enc < 4294967296 := by
  have := fmtEnc_le x.fmt 26 21
  have := x.c.isLt
  have := x.b.isLt
  have := x.a.isLt
  simp only [VStrm.enc]; omega

/-- The tail fields of `VWt` fit. -/
theorem VWt.enc_lt (x : VWt) : x.enc < 4294967296 := by
  have := x.k.isLt
  have := x.ge.toNat_le
  have := x.sc.code_lt
  have := x.c.isLt
  have := x.b.isLt
  have := x.a.isLt
  simp only [VWt.enc]; omega

/-- The tail fields of `MGath` fit. -/
theorem MGath.enc_lt (x : MGath) : x.enc < 4294967296 := by
  have := fmtEnc_le x.fmt 26 27
  have := x.l.toNat_le
  have := x.t.toNat_le
  have := x.nm1.isLt
  have := x.m.toNat_le
  have := x.b.isLt
  have := x.a.isLt
  simp only [MGath.enc]; omega

/-- The tail fields of `MMove` fit. -/
theorem MMove.enc_lt (x : MMove) : x.enc < 4294967296 := by
  have := x.k.isLt
  have := x.z.toNat_le
  have := x.col.toNat_le
  have := x.idx.isLt
  have := x.t.isLt
  simp only [MMove.enc]; omega

/-- The tail fields of `MTile` fit. -/
theorem MTile.enc_lt (x : MTile) : x.enc < 4294967296 := by
  have := fmtEnc_le x.fmt 26 27
  have := x.nm1.isLt
  have := x.c.isLt
  have := x.fr.isLt
  have := x.a.isLt
  simp only [MTile.enc]; omega

/-- The tail fields of `ForkArgs` fit. -/
theorem ForkArgs.enc_lt (x : ForkArgs) : x.enc < 65536 := by
  have := x.xm.toNat_le
  have := x.xc.toNat_le
  have := x.rm.toNat_le
  have := x.rc.toNat_le
  have := x.b.isLt
  have := x.a.isLt
  simp only [ForkArgs.enc]; omega

/-- The tail fields of `CopyXArgs` fit. -/
theorem CopyXArgs.enc_lt (x : CopyXArgs) : x.enc < 4294967296 := by
  have := x.wm1.isLt
  have := x.dir.toNat_le
  have := x.s.toNat_le
  have := x.b.isLt
  have := x.c.isLt
  have := x.a.isLt
  simp only [CopyXArgs.enc]; omega

/-- The tail fields of `FenceArgs` fit. -/
theorem FenceArgs.enc_lt (x : FenceArgs) : x.enc < 65536 := by
  have := x.sc.code_lt
  have := x.win.toNat_le
  have := x.pr.toNat_le
  have := x.pw.toNat_le
  have := x.sr.toNat_le
  have := x.sw.toNat_le
  simp only [FenceArgs.enc]; omega

/-- The tail fields of `SvfArgs` fit. -/
theorem SvfArgs.enc_lt (x : SvfArgs) : x.enc < 65536 := by
  have := x.sc.code_lt
  have := x.dir.isLt
  have := x.pr.toNat_le
  have := x.pw.toNat_le
  have := x.sr.toNat_le
  have := x.sw.toNat_le
  simp only [SvfArgs.enc]; omega

/-- The tail fields of `VReq` fit. -/
theorem VReq.enc_lt (x : VReq) : x.enc < 256 := by
  have := x.fz.isLt
  have := x.lm.isLt
  have := x.sew.isLt
  simp only [VReq.enc]; omega

namespace Laws.Encoding

/-- Fields that a head and a tail of TL halfwords hold (R78, R79). -/
def Fits : Option Enc → Prop
  | none => True
  | some e => e.tl < 4 ∧ e.op < 256 ∧ e.d < 64 ∧ e.tail < 65536 ^ e.tl

/-- The encoding of the instruction, where it has one, fits its fields. -/
def Statement (i : Instr) : Prop := Fits (encode i)

theorem fits {tl op d tail : Nat} (h1 : tl < 4) (h2 : op < 256) (h3 : d < 64) (h4 : tail < 65536 ^ tl) :
    Fits (some { tl := tl, op := op, d := d, tail := tail }) := ⟨h1, h2, h3, h4⟩

theorem nop : Statement (.nop) := fits (by decide) (by decide) (by decide) (by decide)
theorem add (d : SReg) (a : SReg) (b : SReg) : Statement (.add d a b) := fits (by decide) (by decide) (d.isLt) (by have := a.isLt; have := b.isLt; omega)
theorem sub (d : SReg) (a : SReg) (b : SReg) : Statement (.sub d a b) := fits (by decide) (by decide) (d.isLt) (by have := a.isLt; have := b.isLt; omega)
theorem and (d : SReg) (a : SReg) (b : SReg) : Statement (.and d a b) := fits (by decide) (by decide) (d.isLt) (by have := a.isLt; have := b.isLt; omega)
theorem or (d : SReg) (a : SReg) (b : SReg) : Statement (.or d a b) := fits (by decide) (by decide) (d.isLt) (by have := a.isLt; have := b.isLt; omega)
theorem xor (d : SReg) (a : SReg) (b : SReg) : Statement (.xor d a b) := fits (by decide) (by decide) (d.isLt) (by have := a.isLt; have := b.isLt; omega)
theorem sll (d : SReg) (a : SReg) (b : SReg) : Statement (.sll d a b) := fits (by decide) (by decide) (d.isLt) (by have := a.isLt; have := b.isLt; omega)
theorem srl (d : SReg) (a : SReg) (b : SReg) : Statement (.srl d a b) := fits (by decide) (by decide) (d.isLt) (by have := a.isLt; have := b.isLt; omega)
theorem sra (d : SReg) (a : SReg) (b : SReg) : Statement (.sra d a b) := fits (by decide) (by decide) (d.isLt) (by have := a.isLt; have := b.isLt; omega)
theorem mul (d : SReg) (a : SReg) (b : SReg) : Statement (.mul d a b) := fits (by decide) (by decide) (d.isLt) (by have := a.isLt; have := b.isLt; omega)
theorem mulh (d : SReg) (a : SReg) (b : SReg) : Statement (.mulh d a b) := fits (by decide) (by decide) (d.isLt) (by have := a.isLt; have := b.isLt; omega)
theorem mulhn (d : SReg) (a : SReg) (b : SReg) : Statement (.mulhn d a b) := fits (by decide) (by decide) (d.isLt) (by have := a.isLt; have := b.isLt; omega)
theorem div (d : SReg) (a : SReg) (b : SReg) : Statement (.div d a b) := fits (by decide) (by decide) (d.isLt) (by have := a.isLt; have := b.isLt; omega)
theorem divn (d : SReg) (a : SReg) (b : SReg) : Statement (.divn d a b) := fits (by decide) (by decide) (d.isLt) (by have := a.isLt; have := b.isLt; omega)
theorem rem (d : SReg) (a : SReg) (b : SReg) : Statement (.rem d a b) := fits (by decide) (by decide) (d.isLt) (by have := a.isLt; have := b.isLt; omega)
theorem remn (d : SReg) (a : SReg) (b : SReg) : Statement (.remn d a b) := fits (by decide) (by decide) (d.isLt) (by have := a.isLt; have := b.isLt; omega)
theorem min (d : SReg) (a : SReg) (b : SReg) : Statement (.min d a b) := fits (by decide) (by decide) (d.isLt) (by have := a.isLt; have := b.isLt; omega)
theorem max (d : SReg) (a : SReg) (b : SReg) : Statement (.max d a b) := fits (by decide) (by decide) (d.isLt) (by have := a.isLt; have := b.isLt; omega)
theorem minn (d : SReg) (a : SReg) (b : SReg) : Statement (.minn d a b) := fits (by decide) (by decide) (d.isLt) (by have := a.isLt; have := b.isLt; omega)
theorem maxn (d : SReg) (a : SReg) (b : SReg) : Statement (.maxn d a b) := fits (by decide) (by decide) (d.isLt) (by have := a.isLt; have := b.isLt; omega)
theorem slt (d : SReg) (a : SReg) (b : SReg) : Statement (.slt d a b) := fits (by decide) (by decide) (d.isLt) (by have := a.isLt; have := b.isLt; omega)
theorem sltn (d : SReg) (a : SReg) (b : SReg) : Statement (.sltn d a b) := fits (by decide) (by decide) (d.isLt) (by have := a.isLt; have := b.isLt; omega)
theorem sel (d : SReg) (a : SReg) (b : SReg) (c : SReg) : Statement (.sel d a b c) := fits (by decide) (by decide) (d.isLt) (by have := a.isLt; have := b.isLt; have := c.isLt; omega)
theorem clz (d : SReg) (a : SReg) : Statement (.clz d a) := fits (by decide) (by decide) (d.isLt) (by have := a.isLt; omega)
theorem ctz (d : SReg) (a : SReg) : Statement (.ctz d a) := fits (by decide) (by decide) (d.isLt) (by have := a.isLt; omega)
theorem popc (d : SReg) (a : SReg) : Statement (.popc d a) := fits (by decide) (by decide) (d.isLt) (by have := a.isLt; omega)
theorem brev (d : SReg) (a : SReg) : Statement (.brev d a) := fits (by decide) (by decide) (d.isLt) (by have := a.isLt; omega)
theorem bext (d : SReg) (pos : BitVec 6) (lenm : BitVec 6) (a : SReg) : Statement (.bext d pos lenm a) := fits (by decide) (by decide) (d.isLt) (by have := pos.isLt; have := lenm.isLt; have := a.isLt; omega)
theorem bins (d : SReg) (pos : BitVec 6) (lenm : BitVec 6) (a : SReg) : Statement (.bins d pos lenm a) := fits (by decide) (by decide) (d.isLt) (by have := pos.isLt; have := lenm.isLt; have := a.isLt; omega)
theorem addiTl2 (d : SReg) (a : SReg) (imm : BitVec 10) : Statement (.addiTl2 d a imm) := fits (by decide) (by decide) (d.isLt) (by have := a.isLt; have := imm.isLt; omega)
theorem addiTl3 (d : SReg) (a : SReg) (imm : BitVec 32) : Statement (.addiTl3 d a imm) := fits (by decide) (by decide) (d.isLt) (by have := a.isLt; have := imm.isLt; omega)
theorem andiTl2 (d : SReg) (a : SReg) (imm : BitVec 10) : Statement (.andiTl2 d a imm) := fits (by decide) (by decide) (d.isLt) (by have := a.isLt; have := imm.isLt; omega)
theorem andiTl3 (d : SReg) (a : SReg) (imm : BitVec 32) : Statement (.andiTl3 d a imm) := fits (by decide) (by decide) (d.isLt) (by have := a.isLt; have := imm.isLt; omega)
theorem oriTl2 (d : SReg) (a : SReg) (imm : BitVec 10) : Statement (.oriTl2 d a imm) := fits (by decide) (by decide) (d.isLt) (by have := a.isLt; have := imm.isLt; omega)
theorem oriTl3 (d : SReg) (a : SReg) (imm : BitVec 32) : Statement (.oriTl3 d a imm) := fits (by decide) (by decide) (d.isLt) (by have := a.isLt; have := imm.isLt; omega)
theorem xoriTl2 (d : SReg) (a : SReg) (imm : BitVec 10) : Statement (.xoriTl2 d a imm) := fits (by decide) (by decide) (d.isLt) (by have := a.isLt; have := imm.isLt; omega)
theorem xoriTl3 (d : SReg) (a : SReg) (imm : BitVec 32) : Statement (.xoriTl3 d a imm) := fits (by decide) (by decide) (d.isLt) (by have := a.isLt; have := imm.isLt; omega)
theorem sltiTl2 (d : SReg) (a : SReg) (imm : BitVec 10) : Statement (.sltiTl2 d a imm) := fits (by decide) (by decide) (d.isLt) (by have := a.isLt; have := imm.isLt; omega)
theorem sltiTl3 (d : SReg) (a : SReg) (imm : BitVec 32) : Statement (.sltiTl3 d a imm) := fits (by decide) (by decide) (d.isLt) (by have := a.isLt; have := imm.isLt; omega)
theorem slli (d : SReg) (a : SReg) (n : BitVec 6) : Statement (.slli d a n) := fits (by decide) (by decide) (d.isLt) (by have := a.isLt; have := n.isLt; omega)
theorem srli (d : SReg) (a : SReg) (n : BitVec 6) : Statement (.srli d a n) := fits (by decide) (by decide) (d.isLt) (by have := a.isLt; have := n.isLt; omega)
theorem srai (d : SReg) (a : SReg) (n : BitVec 6) : Statement (.srai d a n) := fits (by decide) (by decide) (d.isLt) (by have := a.isLt; have := n.isLt; omega)
theorem liTl2 (d : SReg) (imm : BitVec 26) : Statement (.liTl2 d imm) := fits (by decide) (by decide) (d.isLt) (by have := imm.isLt; omega)
theorem liTl3 (d : SReg) (imm : BitVec 32) : Statement (.liTl3 d imm) := fits (by decide) (by decide) (d.isLt) (by have := imm.isLt; omega)
theorem lih (d : SReg) (imm : BitVec 32) : Statement (.lih d imm) := fits (by decide) (by decide) (d.isLt) (by have := imm.isLt; omega)
theorem b (t : BitVec 26) : Statement (.b t) := fits (by decide) (by decide) (by decide) (by have := t.isLt; omega)
theorem bl (d : SReg) (t : BitVec 26) : Statement (.bl d t) := fits (by decide) (by decide) (d.isLt) (by have := t.isLt; omega)
theorem br (d : SReg) : Statement (.br d) := fits (by decide) (by decide) (d.isLt) (by decide)
theorem blr (d : SReg) (a : SReg) : Statement (.blr d a) := fits (by decide) (by decide) (d.isLt) (by have := a.isLt; omega)
theorem beq (d : SReg) (a : SReg) (t : BitVec 26) : Statement (.beq d a t) := fits (by decide) (by decide) (d.isLt) (by have := a.isLt; have := t.isLt; omega)
theorem bne (d : SReg) (a : SReg) (t : BitVec 26) : Statement (.bne d a t) := fits (by decide) (by decide) (d.isLt) (by have := a.isLt; have := t.isLt; omega)
theorem blt (d : SReg) (a : SReg) (t : BitVec 26) : Statement (.blt d a t) := fits (by decide) (by decide) (d.isLt) (by have := a.isLt; have := t.isLt; omega)
theorem bge (d : SReg) (a : SReg) (t : BitVec 26) : Statement (.bge d a t) := fits (by decide) (by decide) (d.isLt) (by have := a.isLt; have := t.isLt; omega)
theorem bltn (d : SReg) (a : SReg) (t : BitVec 26) : Statement (.bltn d a t) := fits (by decide) (by decide) (d.isLt) (by have := a.isLt; have := t.isLt; omega)
theorem bgen (d : SReg) (a : SReg) (t : BitVec 26) : Statement (.bgen d a t) := fits (by decide) (by decide) (d.isLt) (by have := a.isLt; have := t.isLt; omega)
theorem ldbTl2 (d : SReg) (a : SReg) (off : BitVec 10) : Statement (.ldbTl2 d a off) := fits (by decide) (by decide) (d.isLt) (by have := a.isLt; have := off.isLt; omega)
theorem ldbTl3 (d : SReg) (a : SReg) (off : BitVec 32) : Statement (.ldbTl3 d a off) := fits (by decide) (by decide) (d.isLt) (by have := a.isLt; have := off.isLt; omega)
theorem ldbzTl2 (d : SReg) (a : SReg) (off : BitVec 10) : Statement (.ldbzTl2 d a off) := fits (by decide) (by decide) (d.isLt) (by have := a.isLt; have := off.isLt; omega)
theorem ldbzTl3 (d : SReg) (a : SReg) (off : BitVec 32) : Statement (.ldbzTl3 d a off) := fits (by decide) (by decide) (d.isLt) (by have := a.isLt; have := off.isLt; omega)
theorem ldhTl2 (d : SReg) (a : SReg) (off : BitVec 10) : Statement (.ldhTl2 d a off) := fits (by decide) (by decide) (d.isLt) (by have := a.isLt; have := off.isLt; omega)
theorem ldhTl3 (d : SReg) (a : SReg) (off : BitVec 32) : Statement (.ldhTl3 d a off) := fits (by decide) (by decide) (d.isLt) (by have := a.isLt; have := off.isLt; omega)
theorem ldhzTl2 (d : SReg) (a : SReg) (off : BitVec 10) : Statement (.ldhzTl2 d a off) := fits (by decide) (by decide) (d.isLt) (by have := a.isLt; have := off.isLt; omega)
theorem ldhzTl3 (d : SReg) (a : SReg) (off : BitVec 32) : Statement (.ldhzTl3 d a off) := fits (by decide) (by decide) (d.isLt) (by have := a.isLt; have := off.isLt; omega)
theorem ldwTl2 (d : SReg) (a : SReg) (off : BitVec 10) : Statement (.ldwTl2 d a off) := fits (by decide) (by decide) (d.isLt) (by have := a.isLt; have := off.isLt; omega)
theorem ldwTl3 (d : SReg) (a : SReg) (off : BitVec 32) : Statement (.ldwTl3 d a off) := fits (by decide) (by decide) (d.isLt) (by have := a.isLt; have := off.isLt; omega)
theorem ldwzTl2 (d : SReg) (a : SReg) (off : BitVec 10) : Statement (.ldwzTl2 d a off) := fits (by decide) (by decide) (d.isLt) (by have := a.isLt; have := off.isLt; omega)
theorem ldwzTl3 (d : SReg) (a : SReg) (off : BitVec 32) : Statement (.ldwzTl3 d a off) := fits (by decide) (by decide) (d.isLt) (by have := a.isLt; have := off.isLt; omega)
theorem lddTl2 (d : SReg) (a : SReg) (off : BitVec 10) : Statement (.lddTl2 d a off) := fits (by decide) (by decide) (d.isLt) (by have := a.isLt; have := off.isLt; omega)
theorem lddTl3 (d : SReg) (a : SReg) (off : BitVec 32) : Statement (.lddTl3 d a off) := fits (by decide) (by decide) (d.isLt) (by have := a.isLt; have := off.isLt; omega)
theorem ldqTl2 (d : SReg) (a : SReg) (off : BitVec 10) : Statement (.ldqTl2 d a off) := fits (by decide) (by decide) (d.isLt) (by have := a.isLt; have := off.isLt; omega)
theorem ldqTl3 (d : SReg) (a : SReg) (off : BitVec 32) : Statement (.ldqTl3 d a off) := fits (by decide) (by decide) (d.isLt) (by have := a.isLt; have := off.isLt; omega)
theorem stbTl2 (d : SReg) (a : SReg) (off : BitVec 10) : Statement (.stbTl2 d a off) := fits (by decide) (by decide) (d.isLt) (by have := a.isLt; have := off.isLt; omega)
theorem stbTl3 (d : SReg) (a : SReg) (off : BitVec 32) : Statement (.stbTl3 d a off) := fits (by decide) (by decide) (d.isLt) (by have := a.isLt; have := off.isLt; omega)
theorem sthTl2 (d : SReg) (a : SReg) (off : BitVec 10) : Statement (.sthTl2 d a off) := fits (by decide) (by decide) (d.isLt) (by have := a.isLt; have := off.isLt; omega)
theorem sthTl3 (d : SReg) (a : SReg) (off : BitVec 32) : Statement (.sthTl3 d a off) := fits (by decide) (by decide) (d.isLt) (by have := a.isLt; have := off.isLt; omega)
theorem stwTl2 (d : SReg) (a : SReg) (off : BitVec 10) : Statement (.stwTl2 d a off) := fits (by decide) (by decide) (d.isLt) (by have := a.isLt; have := off.isLt; omega)
theorem stwTl3 (d : SReg) (a : SReg) (off : BitVec 32) : Statement (.stwTl3 d a off) := fits (by decide) (by decide) (d.isLt) (by have := a.isLt; have := off.isLt; omega)
theorem stdTl2 (d : SReg) (a : SReg) (off : BitVec 10) : Statement (.stdTl2 d a off) := fits (by decide) (by decide) (d.isLt) (by have := a.isLt; have := off.isLt; omega)
theorem stdTl3 (d : SReg) (a : SReg) (off : BitVec 32) : Statement (.stdTl3 d a off) := fits (by decide) (by decide) (d.isLt) (by have := a.isLt; have := off.isLt; omega)
theorem stqTl2 (d : SReg) (a : SReg) (off : BitVec 10) : Statement (.stqTl2 d a off) := fits (by decide) (by decide) (d.isLt) (by have := a.isLt; have := off.isLt; omega)
theorem stqTl3 (d : SReg) (a : SReg) (off : BitVec 32) : Statement (.stqTl3 d a off) := fits (by decide) (by decide) (d.isLt) (by have := a.isLt; have := off.isLt; omega)
theorem prefTl2 (h : BitVec 6) (a : SReg) (off : BitVec 10) : Statement (.prefTl2 h a off) := fits (by decide) (by decide) (h.isLt) (by have := a.isLt; have := off.isLt; omega)
theorem prefTl3 (h : BitVec 6) (a : SReg) (off : BitVec 32) : Statement (.prefTl3 h a off) := fits (by decide) (by decide) (h.isLt) (by have := a.isLt; have := off.isLt; omega)
theorem lda (d : SReg) (sc : Scope) (sz : Bool) (a : SReg) (off : BitVec 10) : Statement (.lda d sc sz a off) := fits (by decide) (by decide) (d.isLt) (by have := sc.code_lt; have := sz.toNat_le; have := a.isLt; have := off.isLt; omega)
theorem stl (d : SReg) (sc : Scope) (sz : Bool) (a : SReg) (off : BitVec 10) : Statement (.stl d sc sz a off) := fits (by decide) (by decide) (d.isLt) (by have := sc.code_lt; have := sz.toNat_le; have := a.isLt; have := off.isLt; omega)
theorem amoadd (d : SReg) (b : SReg) (a : SReg) (sz : Bool) (sc : Scope) : Statement (.amoadd d b a sz sc) := fits (by decide) (by decide) (d.isLt) (by have := b.isLt; have := a.isLt; have := sz.toNat_le; have := sc.code_lt; omega)
theorem amoand (d : SReg) (b : SReg) (a : SReg) (sz : Bool) (sc : Scope) : Statement (.amoand d b a sz sc) := fits (by decide) (by decide) (d.isLt) (by have := b.isLt; have := a.isLt; have := sz.toNat_le; have := sc.code_lt; omega)
theorem amoor (d : SReg) (b : SReg) (a : SReg) (sz : Bool) (sc : Scope) : Statement (.amoor d b a sz sc) := fits (by decide) (by decide) (d.isLt) (by have := b.isLt; have := a.isLt; have := sz.toNat_le; have := sc.code_lt; omega)
theorem amoxor (d : SReg) (b : SReg) (a : SReg) (sz : Bool) (sc : Scope) : Statement (.amoxor d b a sz sc) := fits (by decide) (by decide) (d.isLt) (by have := b.isLt; have := a.isLt; have := sz.toNat_le; have := sc.code_lt; omega)
theorem amomin (d : SReg) (b : SReg) (a : SReg) (sz : Bool) (sc : Scope) : Statement (.amomin d b a sz sc) := fits (by decide) (by decide) (d.isLt) (by have := b.isLt; have := a.isLt; have := sz.toNat_le; have := sc.code_lt; omega)
theorem amomax (d : SReg) (b : SReg) (a : SReg) (sz : Bool) (sc : Scope) : Statement (.amomax d b a sz sc) := fits (by decide) (by decide) (d.isLt) (by have := b.isLt; have := a.isLt; have := sz.toNat_le; have := sc.code_lt; omega)
theorem amoswap (d : SReg) (b : SReg) (a : SReg) (sz : Bool) (sc : Scope) : Statement (.amoswap d b a sz sc) := fits (by decide) (by decide) (d.isLt) (by have := b.isLt; have := a.isLt; have := sz.toNat_le; have := sc.code_lt; omega)
theorem amocas (d : SReg) (b : SReg) (c : SReg) (a : SReg) (sz : Bool) (sc : Scope) : Statement (.amocas d b c a sz sc) := fits (by decide) (by decide) (d.isLt) (by have := b.isLt; have := c.isLt; have := a.isLt; have := sz.toNat_le; have := sc.code_lt; omega)
theorem amocasq (d : SReg) (b : SReg) (c : SReg) (a : SReg) (sc : Scope) : Statement (.amocasq d b c a sc) := fits (by decide) (by decide) (d.isLt) (by have := b.isLt; have := c.isLt; have := a.isLt; have := sc.code_lt; omega)
theorem crrd (d : SReg) (idx : BitVec 10) : Statement (.crrd d idx) := fits (by decide) (by decide) (d.isLt) (by have := idx.isLt; omega)
theorem crwr (d : SReg) (idx : BitVec 10) (a : SReg) : Statement (.crwr d idx a) := fits (by decide) (by decide) (d.isLt) (by have := idx.isLt; have := a.isLt; omega)
theorem crset (d : SReg) (idx : BitVec 10) (a : SReg) : Statement (.crset d idx a) := fits (by decide) (by decide) (d.isLt) (by have := idx.isLt; have := a.isLt; omega)
theorem crclr (d : SReg) (idx : BitVec 10) (a : SReg) : Statement (.crclr d idx a) := fits (by decide) (by decide) (d.isLt) (by have := idx.isLt; have := a.isLt; omega)
theorem ecall : Statement (.ecall) := fits (by decide) (by decide) (by decide) (by decide)
theorem ebrk : Statement (.ebrk) := fits (by decide) (by decide) (by decide) (by decide)
theorem tret : Statement (.tret) := fits (by decide) (by decide) (by decide) (by decide)
theorem yield : Statement (.yield) := fits (by decide) (by decide) (by decide) (by decide)
theorem wfi : Statement (.wfi) := fits (by decide) (by decide) (by decide) (by decide)
theorem drainst : Statement (.drainst) := fits (by decide) (by decide) (by decide) (by decide)
theorem ifence : Statement (.ifence) := fits (by decide) (by decide) (by decide) (by decide)
theorem xinvPage (psz : BitVec 4) (a : SReg) : Statement (.xinvPage psz a) := fits (by decide) (by decide) (by decide) (by have := psz.isLt; have := a.isLt; omega)
theorem xinvCtx : Statement (.xinvCtx) := fits (by decide) (by decide) (by decide) (by decide)
theorem xinvRdt : Statement (.xinvRdt) := fits (by decide) (by decide) (by decide) (by decide)
theorem xinvAll : Statement (.xinvAll) := fits (by decide) (by decide) (by decide) (by decide)
theorem sptsw (d : SReg) (a : SReg) : Statement (.sptsw d a) := fits (by decide) (by decide) (d.isLt) (by have := a.isLt; omega)
theorem tkill (a : SReg) : Statement (.tkill a) := fits (by decide) (by decide) (by decide) (by have := a.isLt; omega)
theorem fence (x : FenceArgs) : Statement (.fence x) := fits (by decide) (by decide) (by decide) (by have := x.enc_lt; omega)
theorem svf (x : SvfArgs) : Statement (.svf x) := fits (by decide) (by decide) (by decide) (by have := x.enc_lt; omega)
theorem setvl (d : SReg) (q : VReq) (a : SReg) : Statement (.setvl d q a) := fits (by decide) (by decide) (d.isLt) (by have := q.enc_lt; have := a.isLt; omega)
theorem setvli (d : SReg) (q : VReq) (avl : BitVec 18) : Statement (.setvli d q avl) := fits (by decide) (by decide) (d.isLt) (by have := q.enc_lt; have := avl.isLt; omega)
theorem vadd (d : VReg) (x : VBin) : Statement (.vadd d x) := fits (by decide) (by decide) (by have := d.isLt; omega) (by have := x.enc_lt; omega)
theorem vsub (d : VReg) (x : VBin) : Statement (.vsub d x) := fits (by decide) (by decide) (by have := d.isLt; omega) (by have := x.enc_lt; omega)
theorem vmul (d : VReg) (x : VBin) : Statement (.vmul d x) := fits (by decide) (by decide) (by have := d.isLt; omega) (by have := x.enc_lt; omega)
theorem vmulh (d : VReg) (x : VBin) : Statement (.vmulh d x) := fits (by decide) (by decide) (by have := d.isLt; omega) (by have := x.enc_lt; omega)
theorem vmin (d : VReg) (x : VBin) : Statement (.vmin d x) := fits (by decide) (by decide) (by have := d.isLt; omega) (by have := x.enc_lt; omega)
theorem vmax (d : VReg) (x : VBin) : Statement (.vmax d x) := fits (by decide) (by decide) (by have := d.isLt; omega) (by have := x.enc_lt; omega)
theorem vminn (d : VReg) (x : VBin) : Statement (.vminn d x) := fits (by decide) (by decide) (by have := d.isLt; omega) (by have := x.enc_lt; omega)
theorem vmaxn (d : VReg) (x : VBin) : Statement (.vmaxn d x) := fits (by decide) (by decide) (by have := d.isLt; omega) (by have := x.enc_lt; omega)
theorem vand (d : VReg) (x : VBin) : Statement (.vand d x) := fits (by decide) (by decide) (by have := d.isLt; omega) (by have := x.enc_lt; omega)
theorem vor (d : VReg) (x : VBin) : Statement (.vor d x) := fits (by decide) (by decide) (by have := d.isLt; omega) (by have := x.enc_lt; omega)
theorem vxor (d : VReg) (x : VBin) : Statement (.vxor d x) := fits (by decide) (by decide) (by have := d.isLt; omega) (by have := x.enc_lt; omega)
theorem vsll (d : VReg) (x : VBin) : Statement (.vsll d x) := fits (by decide) (by decide) (by have := d.isLt; omega) (by have := x.enc_lt; omega)
theorem vsrl (d : VReg) (x : VBin) : Statement (.vsrl d x) := fits (by decide) (by decide) (by have := d.isLt; omega) (by have := x.enc_lt; omega)
theorem vsra (d : VReg) (x : VBin) : Statement (.vsra d x) := fits (by decide) (by decide) (by have := d.isLt; omega) (by have := x.enc_lt; omega)
theorem vsadd (d : VReg) (x : VBin) : Statement (.vsadd d x) := fits (by decide) (by decide) (by have := d.isLt; omega) (by have := x.enc_lt; omega)
theorem vssub (d : VReg) (x : VBin) : Statement (.vssub d x) := fits (by decide) (by decide) (by have := d.isLt; omega) (by have := x.enc_lt; omega)
theorem vwmul (d : VReg) (x : VBin) : Statement (.vwmul d x) := fits (by decide) (by decide) (by have := d.isLt; omega) (by have := x.enc_lt; omega)
theorem vwmacc (d : VReg) (x : VBin) : Statement (.vwmacc d x) := fits (by decide) (by decide) (by have := d.isLt; omega) (by have := x.enc_lt; omega)
theorem vwmaccsn (d : VReg) (x : VBin) : Statement (.vwmaccsn d x) := fits (by decide) (by decide) (by have := d.isLt; omega) (by have := x.enc_lt; omega)
theorem vnsra (d : VReg) (x : VBin) : Statement (.vnsra d x) := fits (by decide) (by decide) (by have := d.isLt; omega) (by have := x.enc_lt; omega)
theorem vmseq (d : KReg) (x : VBin) : Statement (.vmseq d x) := fits (by decide) (by decide) (by have := d.isLt; omega) (by have := x.enc_lt; omega)
theorem vmslt (d : KReg) (x : VBin) : Statement (.vmslt d x) := fits (by decide) (by decide) (by have := d.isLt; omega) (by have := x.enc_lt; omega)
theorem vmsltn (d : KReg) (x : VBin) : Statement (.vmsltn d x) := fits (by decide) (by decide) (by have := d.isLt; omega) (by have := x.enc_lt; omega)
theorem vfadd (d : VReg) (x : VBin) : Statement (.vfadd d x) := fits (by decide) (by decide) (by have := d.isLt; omega) (by have := x.enc_lt; omega)
theorem vfsub (d : VReg) (x : VBin) : Statement (.vfsub d x) := fits (by decide) (by decide) (by have := d.isLt; omega) (by have := x.enc_lt; omega)
theorem vfmul (d : VReg) (x : VBin) : Statement (.vfmul d x) := fits (by decide) (by decide) (by have := d.isLt; omega) (by have := x.enc_lt; omega)
theorem vfma (d : VReg) (x : VFma) : Statement (.vfma d x) := fits (by decide) (by decide) (by have := d.isLt; omega) (by have := x.enc_lt; omega)
theorem vfnma (d : VReg) (x : VFma) : Statement (.vfnma d x) := fits (by decide) (by decide) (by have := d.isLt; omega) (by have := x.enc_lt; omega)
theorem vfmin (d : VReg) (x : VBin) : Statement (.vfmin d x) := fits (by decide) (by decide) (by have := d.isLt; omega) (by have := x.enc_lt; omega)
theorem vfmax (d : VReg) (x : VBin) : Statement (.vfmax d x) := fits (by decide) (by decide) (by have := d.isLt; omega) (by have := x.enc_lt; omega)
theorem vfdiv (d : VReg) (x : VBin) : Statement (.vfdiv d x) := fits (by decide) (by decide) (by have := d.isLt; omega) (by have := x.enc_lt; omega)
theorem vfsqrt (d : VReg) (x : VUn) : Statement (.vfsqrt d x) := fits (by decide) (by decide) (by have := d.isLt; omega) (by have := x.enc_lt; omega)
theorem vfexp2 (d : VReg) (x : VUn) : Statement (.vfexp2 d x) := fits (by decide) (by decide) (by have := d.isLt; omega) (by have := x.enc_lt; omega)
theorem vfrcp (d : VReg) (x : VUn) : Statement (.vfrcp d x) := fits (by decide) (by decide) (by have := d.isLt; omega) (by have := x.enc_lt; omega)
theorem vmfeq (d : KReg) (x : VBin) : Statement (.vmfeq d x) := fits (by decide) (by decide) (by have := d.isLt; omega) (by have := x.enc_lt; omega)
theorem vmflt (d : KReg) (x : VBin) : Statement (.vmflt d x) := fits (by decide) (by decide) (by have := d.isLt; omega) (by have := x.enc_lt; omega)
theorem vmfle (d : KReg) (x : VBin) : Statement (.vmfle d x) := fits (by decide) (by decide) (by have := d.isLt; omega) (by have := x.enc_lt; omega)
theorem vfcvt (d : VReg) (x : VCvt) : Statement (.vfcvt d x) := fits (by decide) (by decide) (by have := d.isLt; omega) (by have := x.enc_lt; omega)
theorem vredsum (d : SReg) (x : VRed) : Statement (.vredsum d x) := fits (by decide) (by decide) (d.isLt) (by have := x.enc_lt; omega)
theorem vredosum (d : SReg) (x : VRed) : Statement (.vredosum d x) := fits (by decide) (by decide) (d.isLt) (by have := x.enc_lt; omega)
theorem vredmax (d : SReg) (x : VRed) : Statement (.vredmax d x) := fits (by decide) (by decide) (d.isLt) (by have := x.enc_lt; omega)
theorem vredmin (d : SReg) (x : VRed) : Statement (.vredmin d x) := fits (by decide) (by decide) (d.isLt) (by have := x.enc_lt; omega)
theorem vfredsum (d : SReg) (x : VRed) : Statement (.vfredsum d x) := fits (by decide) (by decide) (d.isLt) (by have := x.enc_lt; omega)
theorem vfredosum (d : SReg) (x : VRed) : Statement (.vfredosum d x) := fits (by decide) (by decide) (d.isLt) (by have := x.enc_lt; omega)
theorem vfredmax (d : SReg) (x : VRed) : Statement (.vfredmax d x) := fits (by decide) (by decide) (d.isLt) (by have := x.enc_lt; omega)
theorem vslideup (d : VReg) (x : VBin) : Statement (.vslideup d x) := fits (by decide) (by decide) (by have := d.isLt; omega) (by have := x.enc_lt; omega)
theorem vslidedn (d : VReg) (x : VBin) : Statement (.vslidedn d x) := fits (by decide) (by decide) (by have := d.isLt; omega) (by have := x.enc_lt; omega)
theorem vperm (d : VReg) (x : VBin) : Statement (.vperm d x) := fits (by decide) (by decide) (by have := d.isLt; omega) (by have := x.enc_lt; omega)
theorem vcompress (d : VReg) (x : VUn) : Statement (.vcompress d x) := fits (by decide) (by decide) (by have := d.isLt; omega) (by have := x.enc_lt; omega)
theorem vexpand (d : VReg) (x : VUn) : Statement (.vexpand d x) := fits (by decide) (by decide) (by have := d.isLt; omega) (by have := x.enc_lt; omega)
theorem vbcast (d : VReg) (x : VBcast) : Statement (.vbcast d x) := fits (by decide) (by decide) (by have := d.isLt; omega) (by have := x.enc_lt; omega)
theorem vext (d : SReg) (x : VExt) : Statement (.vext d x) := fits (by decide) (by decide) (d.isLt) (by have := x.enc_lt; omega)
theorem vprefix (d : VReg) (x : VUn) : Statement (.vprefix d x) := fits (by decide) (by decide) (by have := d.isLt; omega) (by have := x.enc_lt; omega)
theorem kand (d : KReg) (a : KReg) (b : KReg) : Statement (.kand d a b) := fits (by decide) (by decide) (by have := d.isLt; omega) (by have := a.isLt; have := b.isLt; omega)
theorem kor (d : KReg) (a : KReg) (b : KReg) : Statement (.kor d a b) := fits (by decide) (by decide) (by have := d.isLt; omega) (by have := a.isLt; have := b.isLt; omega)
theorem kxor (d : KReg) (a : KReg) (b : KReg) : Statement (.kxor d a b) := fits (by decide) (by decide) (by have := d.isLt; omega) (by have := a.isLt; have := b.isLt; omega)
theorem knot (d : KReg) (a : KReg) : Statement (.knot d a) := fits (by decide) (by decide) (by have := d.isLt; omega) (by have := a.isLt; omega)
theorem kpopc (d : SReg) (a : KReg) : Statement (.kpopc d a) := fits (by decide) (by decide) (d.isLt) (by have := a.isLt; omega)
theorem kfirst (d : SReg) (a : KReg) : Statement (.kfirst d a) := fits (by decide) (by decide) (d.isLt) (by have := a.isLt; omega)
theorem kset (d : KReg) (a : SReg) : Statement (.kset d a) := fits (by decide) (by decide) (by have := d.isLt; omega) (by have := a.isLt; omega)
theorem vldTl2 (d : VReg) (x : VMem) : Statement (.vldTl2 d x) := fits (by decide) (by decide) (by have := d.isLt; omega) (by have := x.enc_lt; omega)
theorem vldTl3 (d : VReg) (x : VMem) (off : BitVec 16) : Statement (.vldTl3 d x off) := fits (by decide) (by decide) (by have := d.isLt; omega) (by have := x.enc_lt; have := off.isLt; omega)
theorem vstTl2 (d : VReg) (x : VMem) : Statement (.vstTl2 d x) := fits (by decide) (by decide) (by have := d.isLt; omega) (by have := x.enc_lt; omega)
theorem vstTl3 (d : VReg) (x : VMem) (off : BitVec 16) : Statement (.vstTl3 d x off) := fits (by decide) (by decide) (by have := d.isLt; omega) (by have := x.enc_lt; have := off.isLt; omega)
theorem vldsTl2 (d : VReg) (x : VMem) : Statement (.vldsTl2 d x) := fits (by decide) (by decide) (by have := d.isLt; omega) (by have := x.enc_lt; omega)
theorem vldsTl3 (d : VReg) (x : VMem) (off : BitVec 16) : Statement (.vldsTl3 d x off) := fits (by decide) (by decide) (by have := d.isLt; omega) (by have := x.enc_lt; have := off.isLt; omega)
theorem vstsTl2 (d : VReg) (x : VMem) : Statement (.vstsTl2 d x) := fits (by decide) (by decide) (by have := d.isLt; omega) (by have := x.enc_lt; omega)
theorem vstsTl3 (d : VReg) (x : VMem) (off : BitVec 16) : Statement (.vstsTl3 d x off) := fits (by decide) (by decide) (by have := d.isLt; omega) (by have := x.enc_lt; have := off.isLt; omega)
theorem vlsegTl2 (d : VReg) (x : VMem) : Statement (.vlsegTl2 d x) := fits (by decide) (by decide) (by have := d.isLt; omega) (by have := x.enc_lt; omega)
theorem vlsegTl3 (d : VReg) (x : VMem) (off : BitVec 16) : Statement (.vlsegTl3 d x off) := fits (by decide) (by decide) (by have := d.isLt; omega) (by have := x.enc_lt; have := off.isLt; omega)
theorem vssegTl2 (d : VReg) (x : VMem) : Statement (.vssegTl2 d x) := fits (by decide) (by decide) (by have := d.isLt; omega) (by have := x.enc_lt; omega)
theorem vssegTl3 (d : VReg) (x : VMem) (off : BitVec 16) : Statement (.vssegTl3 d x off) := fits (by decide) (by decide) (by have := d.isLt; omega) (by have := x.enc_lt; have := off.isLt; omega)
theorem vgatherTl2 (d : VReg) (x : VMem) : Statement (.vgatherTl2 d x) := fits (by decide) (by decide) (by have := d.isLt; omega) (by have := x.enc_lt; omega)
theorem vgatherTl3 (d : VReg) (x : VMem) (off : BitVec 16) : Statement (.vgatherTl3 d x off) := fits (by decide) (by decide) (by have := d.isLt; omega) (by have := x.enc_lt; have := off.isLt; omega)
theorem vscatterTl2 (d : VReg) (x : VMem) : Statement (.vscatterTl2 d x) := fits (by decide) (by decide) (by have := d.isLt; omega) (by have := x.enc_lt; omega)
theorem vscatterTl3 (d : VReg) (x : VMem) (off : BitVec 16) : Statement (.vscatterTl3 d x off) := fits (by decide) (by decide) (by have := d.isLt; omega) (by have := x.enc_lt; have := off.isLt; omega)
theorem vgatherpTl2 (d : VReg) (x : VMem) : Statement (.vgatherpTl2 d x) := fits (by decide) (by decide) (by have := d.isLt; omega) (by have := x.enc_lt; omega)
theorem vgatherpTl3 (d : VReg) (x : VMem) (off : BitVec 16) : Statement (.vgatherpTl3 d x off) := fits (by decide) (by decide) (by have := d.isLt; omega) (by have := x.enc_lt; have := off.isLt; omega)
theorem vscatterpTl2 (d : VReg) (x : VMem) : Statement (.vscatterpTl2 d x) := fits (by decide) (by decide) (by have := d.isLt; omega) (by have := x.enc_lt; omega)
theorem vscatterpTl3 (d : VReg) (x : VMem) (off : BitVec 16) : Statement (.vscatterpTl3 d x off) := fits (by decide) (by decide) (by have := d.isLt; omega) (by have := x.enc_lt; have := off.isLt; omega)
theorem vstqTl2 (d : VReg) (x : VMem) : Statement (.vstqTl2 d x) := fits (by decide) (by decide) (by have := d.isLt; omega) (by have := x.enc_lt; omega)
theorem vstqTl3 (d : VReg) (x : VMem) (off : BitVec 16) : Statement (.vstqTl3 d x off) := fits (by decide) (by decide) (by have := d.isLt; omega) (by have := x.enc_lt; have := off.isLt; omega)
theorem vldqTl2 (d : VReg) (x : VMem) : Statement (.vldqTl2 d x) := fits (by decide) (by decide) (by have := d.isLt; omega) (by have := x.enc_lt; omega)
theorem vldqTl3 (d : VReg) (x : VMem) (off : BitVec 16) : Statement (.vldqTl3 d x off) := fits (by decide) (by decide) (by have := d.isLt; omega) (by have := x.enc_lt; have := off.isLt; omega)
theorem vstream (d : VReg) (x : VStrm) : Statement (.vstream d x) := fits (by decide) (by decide) (by have := d.isLt; omega) (by have := x.enc_lt; omega)
theorem vunbind (d : VReg) : Statement (.vunbind d) := fits (by decide) (by decide) (by have := d.isLt; omega) (by decide)
theorem vwait (d : KReg) (x : VWt) : Statement (.vwait d x) := fits (by decide) (by decide) (by have := d.isLt; omega) (by have := x.enc_lt; omega)
theorem mzero (d : Tile) : Statement (.mzero d) := fits (by decide) (by decide) (by have := d.isLt; omega) (by decide)
theorem mopa (d : Tile) (a : VReg) (b : VReg) : Statement (.mopa d a b) := fits (by decide) (by decide) (by have := d.isLt; omega) (by have := a.isLt; have := b.isLt; omega)
theorem mops (d : Tile) (a : VReg) (b : VReg) : Statement (.mops d a b) := fits (by decide) (by decide) (by have := d.isLt; omega) (by have := a.isLt; have := b.isLt; omega)
theorem mopal (d : Tile) (km1 : BitVec 6) : Statement (.mopal d km1) := fits (by decide) (by decide) (by have := d.isLt; omega) (by have := km1.isLt; omega)
theorem mopax (d : Tile) (k : KReg) : Statement (.mopax d k) := fits (by decide) (by decide) (by have := d.isLt; omega) (by have := k.isLt; omega)
theorem mgath (d : BitVec 6) (x : MGath) : Statement (.mgath d x) := fits (by decide) (by decide) (d.isLt) (by have := x.enc_lt; omega)
theorem mrd (d : VReg) (x : MMove) : Statement (.mrd d x) := fits (by decide) (by decide) (by have := d.isLt; omega) (by have := x.enc_lt; omega)
theorem mwr (d : VReg) (x : MMove) : Statement (.mwr d x) := fits (by decide) (by decide) (by have := d.isLt; omega) (by have := x.enc_lt; omega)
theorem mldTl2 (d : Tile) (x : MTile) : Statement (.mldTl2 d x) := fits (by decide) (by decide) (by have := d.isLt; omega) (by have := x.enc_lt; omega)
theorem mldTl3 (d : Tile) (x : MTile) (off : BitVec 16) : Statement (.mldTl3 d x off) := fits (by decide) (by decide) (by have := d.isLt; omega) (by have := x.enc_lt; have := off.isLt; omega)
theorem mstTl2 (d : Tile) (x : MTile) : Statement (.mstTl2 d x) := fits (by decide) (by decide) (by have := d.isLt; omega) (by have := x.enc_lt; omega)
theorem mstTl3 (d : Tile) (x : MTile) (off : BitVec 16) : Statement (.mstTl3 d x off) := fits (by decide) (by decide) (by have := d.isLt; omega) (by have := x.enc_lt; have := off.isLt; omega)
theorem fork (x : ForkArgs) : Statement (.fork x) := fits (by decide) (by decide) (by decide) (by have := x.enc_lt; omega)
theorem rdv : Statement (.rdv) := fits (by decide) (by decide) (by decide) (by decide)
theorem copy (b : SReg) (a : SReg) : Statement (.copy b a) := fits (by decide) (by decide) (by decide) (by have := b.isLt; have := a.isLt; omega)
theorem copyx (x : CopyXArgs) : Statement (.copyx x) := fits (by decide) (by decide) (by decide) (by have := x.enc_lt; omega)
theorem tbinit (a : SReg) (b : SReg) : Statement (.tbinit a b) := fits (by decide) (by decide) (by decide) (by have := a.isLt; have := b.isLt; omega)
theorem tbarrive (a : SReg) : Statement (.tbarrive a) := fits (by decide) (by decide) (by decide) (by have := a.isLt; omega)
theorem tbexpect (a : SReg) (b : SReg) (arv : Bool) : Statement (.tbexpect a b arv) := fits (by decide) (by decide) (by decide) (by have := a.isLt; have := b.isLt; have := arv.toNat_le; omega)
theorem tbwait (a : SReg) (b : SReg) : Statement (.tbwait a b) := fits (by decide) (by decide) (by decide) (by have := a.isLt; have := b.isLt; omega)
theorem tlwait (d : SReg) (t : BitVec 2) (b : SReg) : Statement (.tlwait d t b) := fits (by decide) (by decide) (d.isLt) (by have := t.isLt; have := b.isLt; omega)
theorem tlread (d : SReg) (sel : BitVec 2) (t : BitVec 2) : Statement (.tlread d sel t) := fits (by decide) (by decide) (d.isLt) (by have := sel.isLt; have := t.isLt; omega)
theorem cbar : Statement (.cbar) := fits (by decide) (by decide) (by decide) (by decide)
theorem bbar : Statement (.bbar) := fits (by decide) (by decide) (by decide) (by decide)
theorem glaunch (d : SReg) (q : BitVec 4) (a : SReg) : Statement (.glaunch d q a) := fits (by decide) (by decide) (d.isLt) (by have := q.isLt; have := a.isLt; omega)
theorem nend : Statement (.nend) := fits (by decide) (by decide) (by decide) (by decide)
theorem ljoin (d : SReg) (off : BitVec 10) (add : Bool) (a : SReg) : Statement (.ljoin d off add a) := fits (by decide) (by decide) (d.isLt) (by have := off.isLt; have := add.toNat_le; have := a.isLt; omega)
theorem lldt (d : SReg) (off : BitVec 10) (b : SReg) (a : SReg) : Statement (.lldt d off b a) := fits (by decide) (by decide) (d.isLt) (by have := off.isLt; have := b.isLt; have := a.isLt; omega)
theorem lflush : Statement (.lflush) := fits (by decide) (by decide) (by decide) (by decide)
theorem colst (d : VReg) (off : BitVec 10) (b : SReg) (a : SReg) : Statement (.colst d off b a) := fits (by decide) (by decide) (by have := d.isLt; omega) (by have := off.isLt; have := b.isLt; have := a.isLt; omega)
theorem colwait (d : SReg) : Statement (.colwait d) := fits (by decide) (by decide) (d.isLt) (by decide)
theorem colwaitLayers (d : SReg) (a : SReg) : Statement (.colwaitLayers d a) := fits (by decide) (by decide) (d.isLt) (by have := a.isLt; omega)
theorem colwaitSeq (d : SReg) (a : SReg) : Statement (.colwaitSeq d a) := fits (by decide) (by decide) (d.isLt) (by have := a.isLt; omega)
theorem discard (a : SReg) (b : SReg) : Statement (.discard a b) := fits (by decide) (by decide) (by decide) (by have := a.isLt; have := b.isLt; omega)
theorem migr (a : SReg) (b : SReg) : Statement (.migr a b) := fits (by decide) (by decide) (by decide) (by have := a.isLt; have := b.isLt; omega)
theorem vlaunch (d : SReg) (a : SReg) : Statement (.vlaunch d a) := fits (by decide) (by decide) (d.isLt) (by have := a.isLt; omega)
theorem vlaunchClear (d : SReg) : Statement (.vlaunchClear d) := fits (by decide) (by decide) (d.isLt) (by decide)
theorem vrlock (d : SReg) (a : SReg) : Statement (.vrlock d a) := fits (by decide) (by decide) (d.isLt) (by have := a.isLt; omega)
theorem vrunlock (dv : Bool) (a : SReg) : Statement (.vrunlock dv a) := fits (by decide) (by decide) (by decide) (by have := dv.toNat_le; have := a.isLt; omega)
theorem vzero (d : SReg) (dv : Bool) (a : SReg) (b : SReg) : Statement (.vzero d dv a b) := fits (by decide) (by decide) (d.isLt) (by have := dv.toNat_le; have := a.isLt; have := b.isLt; omega)
theorem vclone (d : SReg) (dv : Bool) (a : SReg) (b : SReg) (c : SReg) : Statement (.vclone d dv a b c) := fits (by decide) (by decide) (d.isLt) (by have := dv.toNat_le; have := a.isLt; have := b.isLt; have := c.isLt; omega)
theorem vquery (d : SReg) (sel : BitVec 4) (a : SReg) : Statement (.vquery d sel a) := fits (by decide) (by decide) (d.isLt) (by have := sel.isLt; have := a.isLt; omega)
theorem evRegisterWrite (r : RegTarget) (v : BitVec 64) : Statement (.evRegisterWrite r v) := trivial
theorem evSfrqhWrite (h : Nat) (v : BitVec 64) : Statement (.evSfrqhWrite h v) := trivial
theorem evXschedWrite (v : BitVec 64) : Statement (.evXschedWrite v) := trivial
theorem evColallocWrite (st : Nat) (v : BitVec 64) : Statement (.evColallocWrite st v) := trivial
theorem evRouteTableWrite (st : Nat) (ent : Nat) (v : BitVec 32) : Statement (.evRouteTableWrite st ent v) := trivial
theorem evMeshPacketArrive (p : Nat) : Statement (.evMeshPacketArrive p) := trivial
theorem evBackpressureSignal (l : Nat) (vc : Nat) (on : Bool) : Statement (.evBackpressureSignal l vc on) := trivial
theorem evFabricRequestReceive (r : Nat) : Statement (.evFabricRequestReceive r) := trivial
theorem evStoreFaultPost (r : Nat) : Statement (.evStoreFaultPost r) := trivial
theorem evImpreciseDelivery (h : Nat) : Statement (.evImpreciseDelivery h) := trivial
theorem evInterrupt (h : Nat) : Statement (.evInterrupt h) := trivial
theorem evRingRecordRead (st : Nat) (q : Nat) : Statement (.evRingRecordRead st q) := trivial
theorem evDispatch (st : Nat) : Statement (.evDispatch st) := trivial
theorem evNodeAgingStep (nd : Nat) : Statement (.evNodeAgingStep nd) := trivial
theorem evLaneReclaimDeadline (bd : Nat) : Statement (.evLaneReclaimDeadline bd) := trivial
theorem evDrainDeadline (h : Nat) (el : Nat) : Statement (.evDrainDeadline h el) := trivial
theorem evQuiesceMarkerReturn (bd : Nat) (m : Nat) : Statement (.evQuiesceMarkerReturn bd m) := trivial
theorem evSlotSaveComplete (bd : Nat) : Statement (.evSlotSaveComplete bd) := trivial
theorem evSlotRestoreComplete (bd : Nat) : Statement (.evSlotRestoreComplete bd) := trivial
theorem evGraphCompletion (g : Nat) : Statement (.evGraphCompletion g) := trivial
theorem evFatalRemoval (cid : Nat) : Statement (.evFatalRemoval cid) := trivial
theorem evHangWatchdog (bd : Nat) : Statement (.evHangWatchdog bd) := trivial
theorem evPowerControllerSample (x : PowerSample) : Statement (.evPowerControllerSample x) := trivial
theorem evPowerReductionDeadline (core : Nat) : Statement (.evPowerReductionDeadline core) := trivial
theorem evCopyGranule (core : Nat) : Statement (.evCopyGranule core) := trivial
theorem evCopyxTile (core : Nat) : Statement (.evCopyxTile core) := trivial
theorem evStreamRefill (h : Nat) (grp : Nat) : Statement (.evStreamRefill h grp) := trivial
theorem evVeldOperationStart (st : Nat) : Statement (.evVeldOperationStart st) := trivial
theorem evVeldBroadcast (st : Nat) : Statement (.evVeldBroadcast st) := trivial
theorem evVeldStep (st : Nat) (layer : Nat) : Statement (.evVeldStep st layer) := trivial
theorem evBankRefresh (st : Nat) (layer : Nat) (bank : Nat) : Statement (.evBankRefresh st layer bank) := trivial
theorem evGapAccess (st : Nat) (layer : Nat) (bank : Nat) : Statement (.evGapAccess st layer bank) := trivial
theorem evVeldOperationComplete (st : Nat) : Statement (.evVeldOperationComplete st) := trivial
theorem evLockTimeOut (st : Nat) : Statement (.evLockTimeOut st) := trivial
theorem evVrlockTimeOut (st : Nat) (ent : Nat) : Statement (.evVrlockTimeOut st ent) := trivial
theorem evExchangeRound : Statement (.evExchangeRound) := trivial
theorem evExchangeLineReceive (i : Nat) (deliver : Bool) : Statement (.evExchangeLineReceive i deliver) := trivial
theorem evColEntryBroadcast (st : Nat) : Statement (.evColEntryBroadcast st) := trivial
theorem evColReplay (st : Nat) : Statement (.evColReplay st) := trivial
theorem evColResync (st : Nat) (layer : Nat) : Statement (.evColResync st layer) := trivial
theorem evColFrameBoundary (st : Nat) : Statement (.evColFrameBoundary st) := trivial
theorem evLayerPowered (st : Nat) (layer : Nat) : Statement (.evLayerPowered st layer) := trivial
theorem evVwaitTimeOut (h : Nat) : Statement (.evVwaitTimeOut h) := trivial
theorem evLldtTimeOut (h : Nat) : Statement (.evLldtTimeOut h) := trivial
theorem evColwaitTimeOut (h : Nat) : Statement (.evColwaitTimeOut h) := trivial
theorem evRequestResend (r : Nat) : Statement (.evRequestResend r) := trivial
theorem evMeshLinkDown (l : Nat) : Statement (.evMeshLinkDown l) := trivial
theorem evCxlLinkDown (p : Nat) : Statement (.evCxlLinkDown p) := trivial
theorem evLinkDownPhaseEnd (p : Nat) (st : Nat) : Statement (.evLinkDownPhaseEnd p st) := trivial
theorem evCxlLinkTrained (p : Nat) (rate : Nat) (width : Nat) : Statement (.evCxlLinkTrained p rate width) := trivial
theorem evPctlEnWrite (p : Nat) (en : Bool) : Statement (.evPctlEnWrite p en) := trivial
theorem evCxlMemRead (addr : Nat) : Statement (.evCxlMemRead addr) := trivial
theorem evCxlMemWrite (addr : Nat) (data : BitVec 512) : Statement (.evCxlMemWrite addr data) := trivial
theorem evCxlCacheSnoop (addr : Nat) (data : Option (BitVec 512)) : Statement (.evCxlCacheSnoop addr data) := trivial
theorem evUnsupportedRequest (p : Nat) : Statement (.evUnsupportedRequest p) := trivial
theorem evOutboundWindowWrite (p : Nat) (ix : Nat) (x : WinArgs) : Statement (.evOutboundWindowWrite p ix x) := trivial
theorem evQtailWrite (st : Nat) (q : Nat) (tail : BitVec 16) : Statement (.evQtailWrite st q tail) := trivial
theorem evQueueDisable (st : Nat) (q : Nat) : Statement (.evQueueDisable st q) := trivial
theorem evQueueEnable (st : Nat) (q : Nat) : Statement (.evQueueEnable st q) := trivial
theorem evMbInstallContext (pa : Nat) : Statement (.evMbInstallContext pa) := trivial
theorem evMbRemoveContext (cid : Nat) : Statement (.evMbRemoveContext cid) := trivial
theorem evMbLoadKey (key : Nat) (pa : Nat) : Statement (.evMbLoadKey key pa) := trivial
theorem evMbArbitration (st : Nat) (bal : Bool) : Statement (.evMbArbitration st bal) := trivial
theorem evMbDebugHalt (st : Nat) : Statement (.evMbDebugHalt st) := trivial
theorem evMbDebugRelease (st : Nat) : Statement (.evMbDebugRelease st) := trivial
theorem evMbLifeCycleChange (dst : Fuse) : Statement (.evMbLifeCycleChange dst) := trivial
theorem evMbHealthRecord (pa : Nat) : Statement (.evMbHealthRecord pa) := trivial
theorem evPclampWrite (host : Bool) (v : BitVec 12) : Statement (.evPclampWrite host v) := trivial
theorem evReset : Statement (.evReset) := trivial
theorem evBootImageVerify (ok : Bool) : Statement (.evBootImageVerify ok) := trivial
theorem evWipeComplete : Statement (.evWipeComplete) := trivial
theorem evFabricResponseReceive (r : Nat) : Statement (.evFabricResponseReceive r) := trivial
theorem evBaseDieRowBufferTransfer (st : Nat) : Statement (.evBaseDieRowBufferTransfer st) := trivial
theorem evDebuggerArm (h : Nat) (on : Bool) : Statement (.evDebuggerArm h on) := trivial

end Laws.Encoding
end Sys2Proof
end

