-- ==== Sys2Proof/Tests/Slice0.lean ====
section
/-! SUPPORT. Tests: words of the encodings, ill-formed terms, witnesses of the hypotheses of the statements, and single
steps on small states. -/
set_option maxRecDepth 20000
set_option Elab.async false
namespace Sys2Proof.Tests
open Sys2Proof Sys2Proof.Machine Sys2Proof.Obl

/-! Ill-formed terms, one for each check of `wellFormed`. -/

def imm1 : VBin := { k := 0, z := false, n := false, src := .i 1, a := 0 }
def nat1 : VBin := { imm1 with n := true, src := .v 0 }
def plainMem : VMem := { k := 0, z := false, fmt := none, nf := 0, c := 0, b := 0, a := 0 }
def noFork : ForkArgs := { xm := false, xc := false, rm := false, rc := false, b := 0, a := 0 }

/-- R85: SLOT = 0, and bit 25 of a target. -/
theorem test_ill_target : [0#26, 32#26, 0x2000001#26].all (fun t => [Instr.b t, .bl 1 t, .beq 1 2 t, .bne 1 2 t, .blt 1 2 t,
    .bge 1 2 t, .bltn 1 2 t, .bgen 1 2 t].all (fun i => !wellFormed i)) = true := by decide
/-- R154, R162: an odd register of a pair; R157: a hint above 2; R178: a page size above 11. -/
theorem test_ill_scalar : wellFormed (.ldqTl2 1 0 0) = false ∧ wellFormed (.ldqTl3 63 0 0) = false ∧
    wellFormed (.stqTl2 1 0 0) = false ∧ wellFormed (.stqTl3 3 0 0) = false ∧ wellFormed (.prefTl2 3 0 0) = false ∧
    wellFormed (.prefTl3 63 0 0) = false ∧ wellFormed (.amocasq 1 0 0 0 .co) = false ∧
    wellFormed (.amocasq 0 1 0 0 .co) = false ∧ wellFormed (.amocasq 0 0 1 0 .co) = false ∧
    wellFormed (.xinvPage 12 0) = false := by decide
/-- R164, R167: an empty set, WIN without PW, DIR = 0. -/
theorem test_ill_fence :
    wellFormed (.fence { sc := .co, win := false, pr := false, pw := false, sr := true, sw := true }) = false ∧
    wellFormed (.fence { sc := .co, win := false, pr := true, pw := true, sr := false, sw := false }) = false ∧
    wellFormed (.fence { sc := .co, win := true, pr := true, pw := false, sr := true, sw := true }) = false ∧
    wellFormed (.svf { sc := .co, dir := 0, pr := true, pw := true, sr := true, sw := true }) = false ∧
    wellFormed (.svf { sc := .co, dir := 1, pr := false, pw := false, sr := true, sw := true }) = false ∧
    wellFormed (.svf { sc := .co, dir := 2, pr := true, pw := true, sr := false, sw := false }) = false := by decide
/-- R196 to R207: N where the row does not allow it, and a FORM that it does not list. -/
theorem test_ill_vector : wellFormed (.vadd 0 nat1) = false ∧ wellFormed (.vmin 0 nat1) = false ∧
    wellFormed (.vwmaccsn 0 nat1) = false ∧ wellFormed (.vmseq 1 nat1) = false ∧ wellFormed (.vfadd 0 nat1) = false ∧
    wellFormed (.vfadd 0 imm1) = false ∧ wellFormed (.vmfle 1 imm1) = false ∧
    wellFormed (.vfma 0 { k := 0, z := false, src := .i 0, a := 0, c := 0 }) = false ∧
    wellFormed (.vfcvt 0 { k := 0, z := false, kind := 6, a := 0 }) = false ∧
    wellFormed (.vfredsum 1 { k := 0, n := true, b := 0, a := 0 }) = false ∧
    wellFormed (.vslideup 0 { imm1 with src := .v 1 }) = false ∧ wellFormed (.vperm 0 imm1) = false ∧
    wellFormed (.vbcast 0 { k := 0, z := false, src := .v 1 }) = false ∧
    wellFormed (.vext 1 { n := false, src := .v 1, a := 0 }) = false := by decide
/-- R209, R210, R218, R221: unused fields, NF, Z of a store, a fault mask above 15, a stream group below v24. -/
theorem test_ill_memory : wellFormed (.vldTl2 0 { plainMem with nf := 1 }) = false ∧
    wellFormed (.vldTl3 0 { plainMem with c := 1 } 0) = false ∧ wellFormed (.vstTl2 0 { plainMem with z := true }) = false ∧
    wellFormed (.vldsTl2 0 { plainMem with b := 1 }) = false ∧ wellFormed (.vlsegTl2 0 plainMem) = false ∧
    wellFormed (.vssegTl3 0 plainMem 0) = false ∧ wellFormed (.vgatherTl2 0 { plainMem with c := 1 }) = false ∧
    wellFormed (.vgatherpTl2 0 { plainMem with c := 16 }) = false ∧
    wellFormed (.vscatterpTl3 0 { plainMem with c := 16 } 0) = false ∧
    wellFormed (.vstqTl2 0 { plainMem with z := true }) = false ∧
    wellFormed (.vstream 23 { fmt := none, c := 0, b := 1, a := 2 }) = false ∧ wellFormed (.vunbind 23) = false := by decide
/-- R277, R279, R282, R284, R286, R300, R345: counts past the end, and field combinations that are refused. -/
theorem test_ill_engines : wellFormed (.mopal 0 48) = false ∧
    wellFormed (.mgath 47 { fmt := none, l := false, t := false, nm1 := 1, m := false, b := 0, a := 0 }) = false ∧
    wellFormed (.mrd 0 { k := 0, z := false, col := false, idx := 64, t := 0 }) = false ∧
    wellFormed (.mwr 0 { k := 0, z := true, col := true, idx := 64, t := 0 }) = false ∧
    wellFormed (.mldTl2 0 { fmt := none, nm1 := 1, c := 0, fr := 63, a := 0 }) = false ∧
    wellFormed (.mstTl3 0 { fmt := none, nm1 := 63, c := 0, fr := 1, a := 0 } 0) = false ∧
    wellFormed (.fork noFork) = false ∧ wellFormed (.fork { noFork with rm := true, xm := true }) = false ∧
    wellFormed (.fork { noFork with rc := true, xc := true }) = false ∧
    wellFormed (.fork { noFork with rm := true, a := 1 }) = false ∧
    wellFormed (.fork { noFork with rc := true, b := 1 }) = false ∧
    wellFormed (.copyx { wm1 := 0, dir := false, s := true, b := 0, c := 0, a := 0 }) = false ∧
    wellFormed (.vquery 0 6 0) = false := by decide

/-- Words of scalar arithmetic, written from R78, R82, R92 and the layout of each instruction. -/
def words_scalar_arithmetic_1 : List (Nat × Nat × Instr) :=
  [(0x0, 16, .nop),
   (0x40490547, 32, .add 9 7 21),
   (0x40890587, 32, .sub 9 7 22),
   (0x40c905c7, 32, .and 9 7 23),
   (0x41090607, 32, .or 9 7 24),
   (0x41490647, 32, .xor 9 7 25),
   (0x41890687, 32, .sll 9 7 26),
   (0x41c906c7, 32, .srl 9 7 27),
   (0x42090707, 32, .sra 9 7 28),
   (0x42490747, 32, .mul 9 7 29),
   (0x42890787, 32, .mulh 9 7 30),
   (0x42c907c7, 32, .mulhn 9 7 31),
   (0x43090807, 32, .div 9 7 32),
   (0x43490847, 32, .divn 9 7 33),
   (0x43890887, 32, .rem 9 7 34),
   (0x43c908c7, 32, .remn 9 7 35),
   (0x44090907, 32, .min 9 7 36),
   (0x44490947, 32, .max 9 7 37),
   (0x44890987, 32, .minn 9 7 38),
   (0x44c909c7, 32, .maxn 9 7 39),
   (0x45090a07, 32, .slt 9 7 40),
   (0x45490a47, 32, .sltn 9 7 41),
   (0x85890003f207, 48, .sel 9 7 8 63),
   (0x45d7003d, 32, .clz 23 61)]
theorem test_decode_scalar_arithmetic_1 : ∀ e ∈ words_scalar_arithmetic_1, decodeTableWord e.2.1 e.1 = some e.2.2 := by decide

/-- Words of scalar arithmetic, written from R78, R82, R92 and the layout of each instruction. -/
def words_scalar_arithmetic_2 : List (Nat × Nat × Instr) :=
  [(0x4618003d, 32, .ctz 24 61),
   (0x4659003d, 32, .popc 25 61),
   (0x469a003d, 32, .brev 26 61),
   (0x86c10f805002, 48, .bext 1 62 5 2),
   (0x87010843f002, 48, .bins 1 33 63 2)]
theorem test_decode_scalar_arithmetic_2 : ∀ e ∈ words_scalar_arithmetic_2, decodeTableWord e.2.1 e.1 = some e.2.2 := by decide

/-- Words of scalar immediates, written from R78, R82, R92 and the layout of each instruction. -/
def words_scalar_immediates : List (Nat × Nat × Instr) :=
  [(0x8805f8000006, 48, .addiTl2 5 6 992),
   (0xc805800000200006, 64, .addiTl3 5 6 2147483680),
   (0x8845f7c00006, 48, .andiTl2 5 6 991),
   (0xc845800000210006, 64, .andiTl3 5 6 2147483681),
   (0x8885f7800006, 48, .oriTl2 5 6 990),
   (0xc885800000220006, 64, .oriTl3 5 6 2147483682),
   (0x88c5f7400006, 48, .xoriTl2 5 6 989),
   (0xc8c5800000230006, 64, .xoriTl3 5 6 2147483683),
   (0x8905f7000006, 48, .sltiTl2 5 6 988),
   (0xc905800000240006, 64, .sltiTl3 5 6 2147483684),
   (0x49450e86, 32, .slli 5 6 58),
   (0x49850e46, 32, .srli 5 6 57),
   (0x49c50e06, 32, .srai 5 6 56),
   (0x8a05ffffff40, 48, .liTl2 5 67108861),
   (0xca0589abcdef0000, 64, .liTl3 5 0x89ABCDEF),
   (0xca45123456780000, 64, .lih 5 0x12345678)]
theorem test_decode_scalar_immediates : ∀ e ∈ words_scalar_immediates, decodeTableWord e.2.1 e.1 = some e.2.2 := by decide

/-- Words of branches, written from R78, R82, R92 and the layout of each instruction. -/
def words_branches : List (Nat × Nat × Instr) :=
  [(0x8c0000001880, 48, .b 98),
   (0x8c417ffff840, 48, .bl 1 0x1FFFFE1),
   (0xcbf, 16, .br 63),
   (0x4cc10002, 32, .blr 1 2),
   (0x8d0300000d04, 48, .beq 3 4 52),
   (0x8d4300000d44, 48, .bne 3 4 53),
   (0x8d8300000d84, 48, .blt 3 4 54),
   (0x8dc300000dc4, 48, .bge 3 4 55),
   (0x8e0300000e04, 48, .bltn 3 4 56),
   (0x8e4300000e44, 48, .bgen 3 4 57)]
theorem test_decode_branches : ∀ e ∈ words_branches, decodeTableWord e.2.1 e.1 = some e.2.2 := by decide

/-- Words of loads stores, written from R78, R82, R92 and the layout of each instruction. -/
def words_loads_stores_1 : List (Nat × Nat × Instr) :=
  [(0x900af000000b, 48, .ldbTl2 10 11 960),
   (0xd00a00000268000b, 64, .ldbTl3 10 11 616),
   (0x904aefc0000b, 48, .ldbzTl2 10 11 959),
   (0xd04a00000269000b, 64, .ldbzTl3 10 11 617),
   (0x908aef80000b, 48, .ldhTl2 10 11 958),
   (0xd08a0000026a000b, 64, .ldhTl3 10 11 618),
   (0x90caef40000b, 48, .ldhzTl2 10 11 957),
   (0xd0ca0000026b000b, 64, .ldhzTl3 10 11 619),
   (0x910aef00000b, 48, .ldwTl2 10 11 956),
   (0xd10a0000026c000b, 64, .ldwTl3 10 11 620),
   (0x914aeec0000b, 48, .ldwzTl2 10 11 955),
   (0xd14a0000026d000b, 64, .ldwzTl3 10 11 621),
   (0x918aee80000b, 48, .lddTl2 10 11 954),
   (0xd18a0000026e000b, 64, .lddTl3 10 11 622),
   (0x91caee40000b, 48, .ldqTl2 10 11 953),
   (0xd1ca0000026f000b, 64, .ldqTl3 10 11 623),
   (0x920aee00000b, 48, .stbTl2 10 11 952),
   (0xd20a00000270000b, 64, .stbTl3 10 11 624),
   (0x924aedc0000b, 48, .sthTl2 10 11 951),
   (0xd24a00000271000b, 64, .sthTl3 10 11 625),
   (0x928aed80000b, 48, .stwTl2 10 11 950),
   (0xd28a00000272000b, 64, .stwTl3 10 11 626),
   (0x92caed40000b, 48, .stdTl2 10 11 949),
   (0xd2ca00000273000b, 64, .stdTl3 10 11 627)]
theorem test_decode_loads_stores_1 : ∀ e ∈ words_loads_stores_1, decodeTableWord e.2.1 e.1 = some e.2.2 := by decide

/-- Words of loads stores, written from R78, R82, R92 and the layout of each instruction. -/
def words_loads_stores_2 : List (Nat × Nat × Instr) :=
  [(0x930aed00000b, 48, .stqTl2 10 11 948),
   (0xd30a00000274000b, 64, .stqTl3 10 11 628),
   (0x934200400003, 48, .prefTl2 2 3 1),
   (0xd341000000010003, 64, .prefTl3 1 3 1),
   (0x9384ffe80005, 48, .lda 4 .dv true 5 0x3FF),
   (0x93c402300005, 48, .stl 4 .sy false 5 8)]
theorem test_decode_loads_stores_2 : ∀ e ∈ words_loads_stores_2, decodeTableWord e.2.1 e.1 = some e.2.2 := by decide

/-- Words of atomics, written from R78, R82, R92 and the layout of each instruction. -/
def words_atomics : List (Nat × Nat × Instr) :=
  [(0x94060000014a, 48, .amoadd 6 5 10 false .co),
   (0x94060144014a, 48, .amoand 6 5 10 true .st),
   (0x94060088014a, 48, .amoor 6 5 10 false .dv),
   (0x940601cc014a, 48, .amoxor 6 5 10 true .sy),
   (0x94060010014a, 48, .amomin 6 5 10 false .co),
   (0x94060154014a, 48, .amomax 6 5 10 true .st),
   (0x94060098014a, 48, .amoswap 6 5 10 false .dv),
   (0x94460014714a, 48, .amocas 6 5 7 10 true .st),
   (0x9486000c810a, 48, .amocasq 6 4 8 10 .sy)]
theorem test_decode_atomics : ∀ e ∈ words_atomics, decodeTableWord e.2.1 e.1 = some e.2.2 := by decide

/-- Words of system, written from R78, R82, R92 and the layout of each instruction. -/
def words_system : List (Nat × Nat × Instr) :=
  [(0x94c701800000, 48, .crrd 7 6),
   (0x950780400008, 48, .crwr 7 0x201 8),
   (0x954780400008, 48, .crset 7 0x201 8),
   (0x958780400008, 48, .crclr 7 0x201 8),
   (0x55c00000, 32, .ecall),
   (0x55c01000, 32, .ebrk),
   (0x55c02000, 32, .tret),
   (0x55c03000, 32, .yield),
   (0x55c04000, 32, .wfi),
   (0x55c05000, 32, .drainst),
   (0x55c06000, 32, .ifence),
   (0x9600000b0009, 48, .xinvPage 11 9),
   (0x960000100000, 48, .xinvCtx),
   (0x960000200000, 48, .xinvRdt),
   (0x960000300000, 48, .xinvAll),
   (0x56430004, 32, .sptsw 3 4),
   (0x56800004, 32, .tkill 4),
   (0x78006180, 32, .fence { sc := .st, win := true, pr := false, pw := true, sr := true, sw := false }),
   (0x78409600, 32, .svf { sc := .dv, dir := 1, pr := false, pw := true, sr := true, sw := false })]
theorem test_decode_system : ∀ e ∈ words_system, decodeTableWord e.2.1 e.1 = some e.2.2 := by decide

/-- Words of vector arithmetic, written from R78, R82, R92 and the layout of each instruction. -/
def words_vector_arithmetic_1 : List (Nat × Nat × Instr) :=
  [(0x980500003449, 48, .setvl 5 { fz := 3, lm := 2, sew := 1 } 9),
   (0x9845ffffd6c0, 48, .setvli 5 { fz := 1, lm := 3, sew := 3 } 262143),
   (0x9880f0000780, 48, .vadd 0 { k := 15, z := false, n := false, src := .v 30, a := 0 }),
   (0x98c1ea000f81, 48, .vsub 1 { k := 14, z := true, n := false, src := .s 62, a := 1 }),
   (0x9902d4a80002, 48, .vmul 2 { k := 13, z := false, n := false, src := .i 0x2A, a := 2 }),
   (0x9943c9000783, 48, .vmulh 3 { k := 12, z := true, n := true, src := .v 30, a := 3 }),
   (0x9984f2000f84, 48, .vmin 4 { k := 15, z := false, n := false, src := .s 62, a := 4 }),
   (0x99c5eca80005, 48, .vmax 5 { k := 14, z := true, n := false, src := .i 0x2A, a := 5 }),
   (0x9a06d0000786, 48, .vminn 6 { k := 13, z := false, n := false, src := .v 30, a := 6 }),
   (0x9a47ca000f87, 48, .vmaxn 7 { k := 12, z := true, n := false, src := .s 62, a := 7 }),
   (0x9a88f4a80008, 48, .vand 8 { k := 15, z := false, n := false, src := .i 0x2A, a := 8 }),
   (0x9ac9e8000789, 48, .vor 9 { k := 14, z := true, n := false, src := .v 30, a := 9 }),
   (0x9b0ad2000f8a, 48, .vxor 10 { k := 13, z := false, n := false, src := .s 62, a := 10 }),
   (0x9b4bcca8000b, 48, .vsll 11 { k := 12, z := true, n := false, src := .i 0x2A, a := 11 }),
   (0x9b8cf000078c, 48, .vsrl 12 { k := 15, z := false, n := false, src := .v 30, a := 12 }),
   (0x9bcdea000f8d, 48, .vsra 13 { k := 14, z := true, n := false, src := .s 62, a := 13 }),
   (0x9c0ed5a8000e, 48, .vsadd 14 { k := 13, z := false, n := true, src := .i 0x2A, a := 14 }),
   (0x9c4fc900078f, 48, .vssub 15 { k := 12, z := true, n := true, src := .v 30, a := 15 }),
   (0x9c90f3000f90, 48, .vwmul 16 { k := 15, z := false, n := true, src := .s 62, a := 16 }),
   (0x9cd1eda80011, 48, .vwmacc 17 { k := 14, z := true, n := true, src := .i 0x2A, a := 17 }),
   (0x9d12d0000792, 48, .vwmaccsn 18 { k := 13, z := false, n := false, src := .v 30, a := 18 }),
   (0x9d53ca000f93, 48, .vnsra 19 { k := 12, z := true, n := false, src := .s 62, a := 19 }),
   (0x9d87f0000794, 48, .vmseq 7 { k := 15, z := false, n := false, src := .v 30, a := 20 }),
   (0x9dc7ea000f95, 48, .vmslt 7 { k := 14, z := true, n := false, src := .s 62, a := 21 })]
theorem test_decode_vector_arithmetic_1 : ∀ e ∈ words_vector_arithmetic_1, decodeTableWord e.2.1 e.1 = some e.2.2 := by decide

/-- Words of vector arithmetic, written from R78, R82, R92 and the layout of each instruction. -/
def words_vector_arithmetic_2 : List (Nat × Nat × Instr) :=
  [(0x9e07d0000796, 48, .vmsltn 7 { k := 13, z := false, n := false, src := .v 30, a := 22 })]
theorem test_decode_vector_arithmetic_2 : ∀ e ∈ words_vector_arithmetic_2, decodeTableWord e.2.1 e.1 = some e.2.2 := by decide

/-- Words of vector float, written from R78, R82, R92 and the layout of each instruction. -/
def words_vector_float : List (Nat × Nat × Instr) :=
  [(0xa000b0000740, 48, .vfadd 0 { k := 11, z := false, n := false, src := .v 29, a := 0 }),
   (0xa041ca000f41, 48, .vfsub 1 { k := 12, z := true, n := false, src := .s 61, a := 1 }),
   (0xa08200000742, 48, .vfmul 2 { k := 0, z := false, n := false, src := .v 29, a := 2 }),
   (0xa1453a000f45, 48, .vfmin 5 { k := 3, z := true, n := false, src := .s 61, a := 5 }),
   (0xa18640000746, 48, .vfmax 6 { k := 4, z := false, n := false, src := .v 29, a := 6 }),
   (0xa1c75a000f47, 48, .vfdiv 7 { k := 5, z := true, n := false, src := .s 61, a := 7 }),
   (0xa2cb9a000f4b, 48, .vmfeq 11 { k := 9, z := true, n := false, src := .s 61, a := 11 }),
   (0xa30ca000074c, 48, .vmflt 12 { k := 10, z := false, n := false, src := .v 29, a := 12 }),
   (0xa34dba000f4d, 48, .vmfle 13 { k := 11, z := true, n := false, src := .s 61, a := 13 }),
   (0xa0c43a011549, 48, .vfma 4 { k := 3, z := true, src := .s 21, a := 9, c := 17 }),
   (0xa10438011549, 48, .vfnma 4 { k := 3, z := true, src := .v 21, a := 9, c := 17 }),
   (0xa21f88000010, 48, .vfsqrt 31 { k := 8, z := true, a := 16 }),
   (0xa25f88000010, 48, .vfexp2 31 { k := 8, z := true, a := 16 }),
   (0xa29f88000010, 48, .vfrcp 31 { k := 8, z := true, a := 16 }),
   (0xa6df88000010, 48, .vcompress 31 { k := 8, z := true, a := 16 }),
   (0xa71f88000010, 48, .vexpand 31 { k := 8, z := true, a := 16 }),
   (0xa7df88000010, 48, .vprefix 31 { k := 8, z := true, a := 16 }),
   (0xa38210140003, 48, .vfcvt 2 { k := 1, z := false, kind := 5, a := 3 })]
theorem test_decode_vector_float : ∀ e ∈ words_vector_float, decodeTableWord e.2.1 e.1 = some e.2.2 := by decide

/-- Words of vector reductions, written from R78, R82, R92 and the layout of each instruction. -/
def words_vector_reductions : List (Nat × Nat × Instr) :=
  [(0xa43203000a14, 48, .vredsum 50 { k := 0, n := true, b := 40, a := 20 }),
   (0xa47313000a55, 48, .vredosum 51 { k := 1, n := true, b := 41, a := 21 }),
   (0xa4b423000a96, 48, .vredmax 52 { k := 2, n := true, b := 42, a := 22 }),
   (0xa4f533000ad7, 48, .vredmin 53 { k := 3, n := true, b := 43, a := 23 }),
   (0xa53642000b18, 48, .vfredsum 54 { k := 4, n := false, b := 44, a := 24 }),
   (0xa57752000b59, 48, .vfredosum 55 { k := 5, n := false, b := 45, a := 25 }),
   (0xa5b862000b9a, 48, .vfredmax 56 { k := 6, n := false, b := 46, a := 26 }),
   (0xa60622000f05, 48, .vslideup 6 { k := 2, z := false, n := false, src := .s 60, a := 5 }),
   (0xa6460cfc0005, 48, .vslidedn 6 { k := 0, z := true, n := false, src := .i 63, a := 5 }),
   (0xa68600000305, 48, .vperm 6 { k := 0, z := false, n := false, src := .v 12, a := 5 }),
   (0xa74644fc0000, 48, .vbcast 6 { k := 4, z := false, src := .i 63 }),
   (0xa7bc03000845, 48, .vext 60 { n := true, src := .s 33, a := 5 }),
   (0x680f038d, 32, .kand 15 13 14),
   (0x684f038d, 32, .kor 15 13 14),
   (0x688f038d, 32, .kxor 15 13 14),
   (0x68c10002, 32, .knot 1 2),
   (0x693c0003, 32, .kpopc 60 3),
   (0x697d0004, 32, .kfirst 61 4),
   (0x6985003e, 32, .kset 5 62)]
theorem test_decode_vector_reductions : ∀ e ∈ words_vector_reductions, decodeTableWord e.2.1 e.1 = some e.2.2 := by decide

/-- Words of vector memory, written from R78, R82, R92 and the layout of each instruction. -/
def words_vector_memory_1 : List (Nat × Nat × Instr) :=
  [(0xaa080c200032, 48, .vldTl2 8 { k := 0, z := true, fmt := some 1, nf := 0, c := 0, b := 0, a := 50 }),
   (0xea08fffe0c200032, 64, .vldTl3 8 { k := 0, z := true, fmt := some 1, nf := 0, c := 0, b := 0, a := 50 } 65534),
   (0xaa4810000032, 48, .vstTl2 8 { k := 1, z := false, fmt := none, nf := 0, c := 0, b := 0, a := 50 }),
   (0xea48fffc10000032, 64, .vstTl3 8 { k := 1, z := false, fmt := none, nf := 0, c := 0, b := 0, a := 50 } 65532),
   (0xaa882c62d032, 48, .vldsTl2 8 { k := 2, z := true, fmt := some 3, nf := 0, c := 45, b := 0, a := 50 }),
   (0xea88fffa2c62d032, 64, .vldsTl3 8 { k := 2, z := true, fmt := some 3, nf := 0, c := 45, b := 0, a := 50 } 65530),
   (0xaac83002d032, 48, .vstsTl2 8 { k := 3, z := false, fmt := none, nf := 0, c := 45, b := 0, a := 50 }),
   (0xeac8fff83002d032, 64, .vstsTl3 8 { k := 3, z := false, fmt := none, nf := 0, c := 45, b := 0, a := 50 } 65528),
   (0xab084cac0032, 48, .vlsegTl2 8 { k := 4, z := true, fmt := some 5, nf := 3, c := 0, b := 0, a := 50 }),
   (0xeb08fff64cac0032, 64, .vlsegTl3 8 { k := 4, z := true, fmt := some 5, nf := 3, c := 0, b := 0, a := 50 } 65526),
   (0xab4850100032, 48, .vssegTl2 8 { k := 5, z := false, fmt := none, nf := 4, c := 0, b := 0, a := 50 }),
   (0xeb48fff450100032, 64, .vssegTl3 8 { k := 5, z := false, fmt := none, nf := 4, c := 0, b := 0, a := 50 } 65524),
   (0xab886ce006f2, 48, .vgatherTl2 8 { k := 6, z := true, fmt := some 7, nf := 0, c := 0, b := 27, a := 50 }),
   (0xeb88fff26ce006f2, 64, .vgatherTl3 8 { k := 6, z := true, fmt := some 7, nf := 0, c := 0, b := 27, a := 50 } 65522),
   (0xabc8700006f2, 48, .vscatterTl2 8 { k := 7, z := false, fmt := none, nf := 0, c := 0, b := 27, a := 50 }),
   (0xebc8fff0700006f2, 64, .vscatterTl3 8 { k := 7, z := false, fmt := none, nf := 0, c := 0, b := 27, a := 50 } 65520),
   (0xac088d20b6f2, 48, .vgatherpTl2 8 { k := 8, z := true, fmt := some 9, nf := 0, c := 11, b := 27, a := 50 }),
   (0xec08ffee8d20b6f2, 64, .vgatherpTl3 8 { k := 8, z := true, fmt := some 9, nf := 0, c := 11, b := 27, a := 50 } 65518),
   (0xac489000b6f2, 48, .vscatterpTl2 8 { k := 9, z := false, fmt := none, nf := 0, c := 11, b := 27, a := 50 }),
   (0xec48ffec9000b6f2, 64, .vscatterpTl3 8 { k := 9, z := false, fmt := none, nf := 0, c := 11, b := 27, a := 50 } 65516),
   (0xac88a562d032, 48, .vstqTl2 8 { k := 10, z := false, fmt := some 11, nf := 0, c := 45, b := 0, a := 50 }),
   (0xec88ffeaa562d032, 64, .vstqTl3 8 { k := 10, z := false, fmt := some 11, nf := 0, c := 45, b := 0, a := 50 } 65514),
   (0xacc8b802d032, 48, .vldqTl2 8 { k := 11, z := true, fmt := none, nf := 0, c := 45, b := 0, a := 50 }),
   (0xecc8ffe8b802d032, 64, .vldqTl3 8 { k := 11, z := true, fmt := none, nf := 0, c := 45, b := 0, a := 50 } 65512)]
theorem test_decode_vector_memory_1 : ∀ e ∈ words_vector_memory_1, decodeTableWord e.2.1 e.1 = some e.2.2 := by decide

/-- Words of vector memory, written from R78, R82, R92 and the layout of each instruction. -/
def words_vector_memory_2 : List (Nat × Nat × Instr) :=
  [(0xad180460a2cc, 48, .vstream 24 { fmt := some 3, c := 10, b := 11, a := 12 }),
   (0x2d5f, 16, .vunbind 31),
   (0xad832a009108, 48, .vwait 3 { k := 2, ge := true, sc := .dv, c := 9, b := 4, a := 8 })]
theorem test_decode_vector_memory_2 : ∀ e ∈ words_vector_memory_2, decodeTableWord e.2.1 e.1 = some e.2.2 := by decide

/-- Words of matrix, written from R78, R82, R92 and the layout of each instruction. -/
def words_matrix : List (Nat × Nat × Instr) :=
  [(0x3007, 16, .mzero 7),
   (0x70410102, 32, .mopa 1 2 4),
   (0x708607de, 32, .mops 6 30 31),
   (0x7105002f, 32, .mopal 5 47),
   (0x7145000f, 32, .mopax 5 15),
   (0xb0e88f1e00c9, 48, .mgath 40 { fmt := some 17, l := true, t := true, nm1 := 7, m := true, b := 3, a := 9 }),
   (0xb188587fb000, 48, .mrd 8 { k := 5, z := true, col := true, idx := 127, t := 3 }),
   (0xb1c8501ff000, 48, .mwr 8 { k := 5, z := false, col := false, idx := 63, t := 7 }),
   (0xb20414f0ac0b, 48, .mldTl2 4 { fmt := some 2, nm1 := 15, c := 10, fr := 48, a := 11 }),
   (0xf204800014f0ac0b, 64, .mldTl3 4 { fmt := some 2, nm1 := 15, c := 10, fr := 48, a := 11 } 0x8000),
   (0xb24414f0ac0b, 48, .mstTl2 4 { fmt := some 2, nm1 := 15, c := 10, fr := 48, a := 11 }),
   (0xf244800014f0ac0b, 64, .mstTl3 4 { fmt := some 2, nm1 := 15, c := 10, fr := 48, a := 11 } 0x8000)]
theorem test_decode_matrix : ∀ e ∈ words_matrix, decodeTableWord e.2.1 e.1 = some e.2.2 := by decide

/-- Words of engines, written from R78, R82, R92 and the layout of each instruction. -/
def words_engines : List (Nat × Nat × Instr) :=
  [(0x74000554, 32, .fork { xm := false, xc := false, rm := false, rc := false, b := 21, a := 20 }),
   (0x74006140, 32, .fork { xm := false, xc := true, rm := true, rc := false, b := 5, a := 0 }),
   (0x3440, 16, .rdv),
   (0xb48000003004, 48, .copy 3 4),
   (0xb4c000fc1083, 48, .copyx { wm1 := 15, dir := true, s := true, b := 1, c := 2, a := 3 }),
   (0xb50000000185, 48, .tbinit 5 6),
   (0xb54000000005, 48, .tbarrive 5),
   (0xb58000001185, 48, .tbexpect 5 6 true),
   (0xb5c000000185, 48, .tbwait 5 6),
   (0xb60600003140, 48, .tlwait 6 3 5),
   (0x76460009, 32, .tlread 6 2 1),
   (0x3680, 16, .cbar),
   (0x36c0, 16, .bbar),
   (0x7706b007, 32, .glaunch 6 11 7),
   (0x3740, 16, .nend)]
theorem test_decode_engines : ∀ e ∈ words_engines, decodeTableWord e.2.1 e.1 = some e.2.2 := by decide

/-- Words of regions and veld, written from R78, R82, R92 and the layout of each instruction. -/
def words_regions_and_veld : List (Nat × Nat × Instr) :=
  [(0xb8867fe00007, 48, .ljoin 6 0x1FF true 7),
   (0xb8c680000207, 48, .lldt 6 0x200 8 7),
   (0x3900, 16, .lflush),
   (0xb9410000034c, 48, .colst 1 0 13 12),
   (0x79860000, 32, .colwait 6),
   (0x79864007, 32, .colwaitLayers 6 7),
   (0x79868007, 32, .colwaitSeq 6 7),
   (0x79c00207, 32, .discard 7 8),
   (0x7a000207, 32, .migr 7 8),
   (0x7c060009, 32, .vlaunch 6 9),
   (0x7c060040, 32, .vlaunchClear 6),
   (0x7c460009, 32, .vrlock 6 9),
   (0x7c800049, 32, .vrunlock true 9),
   (0xbcc6004002ca, 48, .vzero 6 true 10 11),
   (0xbd060000b30a, 48, .vclone 6 false 10 12 11),
   (0x7d461000, 32, .vquery 6 1 0)]
theorem test_decode_regions_and_veld : ∀ e ∈ words_regions_and_veld, decodeTableWord e.2.1 e.1 = some e.2.2 := by decide

/-! Witnesses: states and operands that meet the hypotheses of each statement. -/

/-- A part in READY with one hart at node level in context 1, with a handler, an exit routine and a machine entry. -/
def base : State :=
  ((wordState State.reset).modCtx 1 (fun c => { c with tvec := 0x8002, exitv := 0x9002 })).modHart 0
    (fun x => { x with mentry := 0xA002 })
/-- That part with its hart changed. -/
def withHart (f : Hart → Hart) : State := base.modHart 0 f
/-- In a handler at supervisor level: H = 1, LVL = 0b01. -/
def inS : State := withHart (fun x => { x with hstat := 3 })

/-- A packet of a load from stack 0 with some hops left, and its variants. -/
def rq0 : FReq :=
  { src := 0, live := true, seq := 1, acc := { va := 0x8000, pa := 0x8000, key := 0, cmp := false, lt := 0, ub := false, cid := 1, from_ := 0, via := .scalar },
    n := 8, op := .read, home := 0, instr := .lddTl2 1 5 0, pc := 0x4002, phase := .out, router := 0, hops := 1, turns := 1, came := none,
    here := false, tries := 0, sentAt := 0, resp := { val := 0, poison := false, deny := false, refused := [] }, lost := false, entry := 5, stamp := 2, cut := false }
def withReq (q : FReq) : State := { base with reqs := [(7, q)] }
theorem wit_HintsOnlyAdvance : base.agent = .hart 0 := by decide +kernel
theorem wit_ScalarArithmetic : base.agent = .hart 0 ∧ aluOf (base.hart 0) (.div 1 2 0) = some (1, BitVec.allOnes 64) ∧
    aluOf (base.hart 0) (.slli 0 1 63) = some (0, 0) := by decide +kernel
theorem wit_BranchesGo :
    let s := withHart (fun x => x.wr 5 0xFFFFFFFFFFFFFFFE)
    s.agent = .hart 0 ∧ goodTarget ((s.hart 0).rd 5) = true ∧ condOf (s.hart 0) (.beq 1 2 1) = some (1, true) ∧
      condOf (s.hart 0) (.bgen 1 5 0x1FFFFFF) = some (0x1FFFFFF, false) := by decide +kernel
theorem wit_CallsAndBreakpoints :
    let m := withHart (fun x => { x with hstat := 6 })
    let sup := withHart (fun x => { x with hstat := 2 })
    (base.agent = .hart 0 ∧ (base.hart 0).vq = [] ∧ (base.hart 0).level = .n ∧ fld (base.hart 0).hstat 4 1 = 0 ∧
      handlerOf base 0 0x11 ≠ 0 ∧ handlerOf base 0 0x13 ≠ 0 ∧ (base.hart 0).inHandler = false) ∧
    ((sup.hart 0).level = .s ∧ handlerOf sup 0 0x12 ≠ 0 ∧ (sup.hart 0).inHandler = false ∧ (sup.hart 0).vq = []) ∧
    ((m.hart 0).level = .m ∧ handlerOf m 0 0x01 ≠ 0 ∧ (m.hart 0).inHandler = false ∧ (m.hart 0).vq = []) ∧
    ((inS.hart 0).inHandler = true ∧ (inS.hart 0).level = .s ∧ fld (inS.hart 0).hstat 5 1 = 0 ∧
      fld (inS.hart 0).hstat 4 1 = 0 ∧ handlerOf inS 0 0x13 ≠ 0) ∧
    (let z := base.modCtx 1 (fun c => { c with tvec := 0 })
     handlerOf z 0 0x13 = 0 ∧ handlerOf z 0 0x11 = 0 ∧ pcField (z.ctx 1).exitv ≠ 0 ∧ 0 ∈ z.ctxHarts 1 ∧ (z.hart 0).cid = 1 ∧
       ∀ h ∈ z.ctxHarts 1, (z.stack (h / 32)).halted = false) ∧
    (let n := withHart (fun x => { x with hstat := 0x23 })
     (n.hart 0).inHandler = true ∧ targetOf (n.hart 0) 0x13 = (n.hart 0).level ∧ fld (n.hart 0).hstat 5 1 = 1 ∧
       fld (n.hart 0).hstat 4 1 = 0 ∧ handlerOf n 0 0x13 ≠ 0 ∧ pcField (n.ctx 1).exitv ≠ 0 ∧ 0 ∈ n.ctxHarts 1) ∧
    (let a := withHart (fun x => { x with hstat := 0x10 })
     a.agent = .hart 0 ∧ fld (a.hart 0).hstat 4 1 = 1 ∧ (a.hart 0).wait = none) := by decide +kernel
/-- A TSTAT that names no queue image; one that names an image of one entry; one of a machine handler with a frame. -/
theorem wit_ReturnFromTrap :
    let q := withHart (fun x => { x with hstat := 3, tstat := 0x1800, image := some [entryOf x .nop] })
    let m := withHart (fun x => { x with hstat := 7, tstat := 6, mframe := { MFrame.empty with valid := true } })
    (inS.agent = .hart 0 ∧ (inS.hart 0).vq = [] ∧ (inS.hart 0).inHandler = true ∧ (inS.hart 0).level ≠ .n ∧
      GoodStatus (inS.hart 0)) ∧
    ((q.hart 0).inHandler = true ∧ (q.hart 0).level = .s ∧ (q.hart 0).vq = [] ∧ GoodStatus (q.hart 0)) ∧
    ((m.hart 0).inHandler = true ∧ (m.hart 0).level = .m ∧ (m.hart 0).mframe.valid = true ∧ (m.hart 0).vq = [] ∧
      GoodStatus (m.hart 0)) := by
  refine ⟨⟨by decide, by decide, by decide, by decide, ?_⟩, ⟨by decide, by decide, by decide, ?_⟩,
    ⟨by decide, by decide, by decide, by decide, ?_⟩⟩
  · exact ⟨by decide, by decide, by decide, by decide, by decide, by decide, by decide, by decide⟩
  · exact ⟨by decide, by decide, by decide, by decide, by decide, by decide, by decide,
      fun _ => ⟨by decide, by decide, _, rfl, by decide⟩⟩
  · exact ⟨by decide, by decide, by decide, by decide, by decide, by decide, by decide, by decide⟩
theorem wit_BadOperandsTrapPrecisely :
    let b := withHart (fun x => { x with hstat := 3, tstat := 1 })
    let r := withHart (fun x => x.wr 5 0x40)
    (base.agent = .hart 0 ∧ (base.hart 0).vq = [] ∧ (base.hart 0).level = .n ∧ handlerOf base 0 0x01 ≠ 0 ∧
      (base.hart 0).inHandler = false) ∧
    ((b.hart 0).level = .s ∧ (b.hart 0).inHandler = true ∧ fld (b.hart 0).hstat 5 1 = 0 ∧ handlerOf b 0 0x10 ≠ 0 ∧
      targetOf (b.hart 0) 0x10 = (b.hart 0).level ∧ fld (b.hart 0).tstat 0 1 ≠ 0) ∧
    (handlerOf r 0 0x06 ≠ 0 ∧ (r.hart 0).inHandler = false ∧ goodTarget ((r.hart 0).rd 5) = false) ∧
    (base.posting = none ∧ (base.hart 0).await = none ∧ base.reqs = [] ∧ base.winParts = [] ∧ handlerOf base 0 0x06 ≠ 0 ∧
      accessOf (base.hart 0) (.lddTl2 1 0 1) = some (1, 8) ∧ accessOf (base.hart 0) (.stqTl2 2 0 8) = some (8, 16) ∧
      accessOf (base.hart 0) (.amocasq 2 4 6 0 .dv) = some (0, 16)) := by decide +kernel
theorem wit_LowerLevelsAreDenied :
    base.agent = .hart 0 ∧ (base.hart 0).vq = [] ∧ handlerOf base 0 0x01 ≠ 0 ∧ (base.hart 0).inHandler = false ∧
      (base.hart 0).level = .n ∧ crEntry 0x3FF = none ∧ (∀ e ∈ crTable, e.1 = 0x011 → e.2.1 = .s) ∧
      (∀ e ∈ crTable, e.1 = 0x000 → e.2.2 = none) ∧ crNew (base.hart 0) 0 (.crwr 1 0 2) = some (1, 0, 0) := by decide +kernel
def rec0 : SfRec :=
  { va := 0x8000, pa := 0x8000, cid := 1, elem := 0, cause := 0x0A, dlv := false, crew := 0, hart := 0, ended := false }
/-- A plain register; the registers whose fields refuse values, at such values; UBRES, COLALLOC, and SFRQH with one record at
a good and at a bad offset, all at machine level. -/
theorem wit_ControlRegisters :
    (mayRead (base.hart 0).level 0x003 ∧ crReady (base.hart 0) 0x006 ∧ mayWrite (base.hart 0).level 0x03B ∧
      crAfter 5 7 0x03B = some 7 ∧ crNew (base.hart 0) 5 (.crclr 1 0x03B 2) = some (1, 0x03B, 5)) ∧
    (crAfter 0x10000 0x28001 0x003 = some 0x10001 ∧ crAfter 0x8002 0x8001 0x011 = some 0x8002 ∧
      crAfter 0x8002 0 0x017 = some 0 ∧ crAfter 0x3E80001 3 0x03A = some 1 ∧ seqnAfter 0x30 65 = 0x30 ∧ seqnAfter 0x30 64 = 0x40) ∧
    (let m := (withHart (fun x => { x with hstat := 6 })).modCore 0 (fun c => { c with sfrq := [rec0] })
     (m.agent = .hart 0 ∧ tget 0 (m.ctx (m.hart 0).cid).ubres 0 < 2 ^ 20 ∧ ((m.core 0).records (m.hart 0).cid).length = 1 ∧
       fld (0x100000020 : W) 0 32 % 32 = 0 ∧ fld (0x100000021 : W) 0 32 % 32 ≠ 0) ∧
     mayWrite (m.hart 0).level 0x003 ∧ mayWrite (m.hart 0).level 0x011 ∧ mayWrite (m.hart 0).level 0x017 ∧
       mayWrite (m.hart 0).level 0x03A ∧ mayWrite (m.hart 0).level 0x040 ∧ mayWrite (m.hart 0).level 0x038 ∧
       mayWrite (m.hart 0).level 0x028) := by
  refine ⟨⟨⟨_, rfl, by decide⟩, fun _ => by decide, ⟨⟨_, rfl, by decide⟩, _, _, rfl, rfl, by decide⟩, by decide, by decide⟩,
    by decide, by decide +kernel, ?_⟩
  refine ⟨?_, ?_, ?_, ?_, ?_, ?_, ?_⟩ <;> exact ⟨⟨_, rfl, by decide⟩, _, _, rfl, rfl, by decide⟩
theorem wit_OrderAndWait :
    let i := withHart (fun x => { x with hstat := 0x202 })
    let w := withHart (fun x => { x with hstat := 2 })
    (base.agent = .hart 0 ∧ (base.hart 0).vq = [] ∧ base.reqs = [] ∧ base.winParts = [] ∧ (base.hart 0).colPend = 0 ∧
      (base.hart 0).level = .n) ∧
    ((withReq rq0).agent = .hart 0 ∧ (∃ e ∈ (withReq rq0).reqs, e.2.src = 0 ∧ e.2.kinds.1 = true) ∧ 3 % 2 = 1 ∧ 2 ≤ 3) ∧
      fld (i.hart 0).hstat 9 1 = 1 ∧ ((w.hart 0).level ≠ .n ∧ fld (w.hart 0).hstat 9 1 = 0) := by decide +kernel
theorem wit_InvalidationsComplete :
    let m := withHart (fun x => { x with hstat := 6 })
    (m.agent = .hart 0 ∧ (m.hart 0).level = .m ∧ (m.hart 0).cid = 1 ∧ accessPends m 1 = false ∧ m.winParts = [] ∧ vptLocked m 1 = false ∧
      rdtLocked m 1 = false ∧ (∀ st, st < 16 → reachOn m 2 2 0 st = .ok) ∧
      ∀ k ∈ tkeys m.ctxs, vptLocked m k = false) ∧
    accessPends (withHart (fun x => { x with hstat := 6, vq := [entryOf x .nop] })) 1 = true := by decide +kernel
theorem wit_CrewKillEndsTheCrew : inS.agent = .hart 0 ∧ (inS.hart 0).level ≠ .n ∧ (inS.hart 0).inHandler = true ∧
    (∃ b, inS.band? (inS.hart 0).band = some b ∧ b.incoming = none) ∧ 0 ∈ crewHarts inS 0 ∧
    (inS.ctx (inS.hart 0).cid).installed = true ∧ ∀ k ∈ crewHarts inS 0, (inS.hart k).cid = (inS.hart 0).cid := by
  refine ⟨by decide +kernel, by decide +kernel, by decide +kernel, ⟨_, rfl, rfl⟩, by decide +kernel, by decide +kernel,
    by decide +kernel⟩
/-- A decidable form of `FreeAccess` in backed DRAM. -/
def freeCheck (s : State) (r : Rq) (via : Via) (k : AKind) (va : W) (n : Nat) (acc : Acc) (b : Nat) (w : Bool) : Bool :=
  !sptHeld s via k && !pieceHeld s r via k { va := va, n := n, acc := acc, p := .dram b w } &&
    decide (gapLines s acc (.dram b w) n = []) &&
    (linesOf (if acc.lt = 0 then acc.pa else homeAddr acc (.dram b w)) n).all (fun l =>
      decide (setLines s (homeStack s acc (.dram b w)) l = [] ∧ (setHosts s (homeStack s acc (.dram b w)) l).length < ways s.sdp))
theorem free_of_check {s : State} {r : Rq} {via : Via} {k : AKind} {va : W} {n : Nat} {acc : Acc} {b : Nat} {w : Bool}
    (h : freeCheck s r via k va n acc b w = true) : FreeAccess s r via k va n acc (.dram b w) := by
  simp only [freeCheck, Bool.and_eq_true, Bool.not_eq_true', decide_eq_true_eq, List.all_eq_true] at h
  refine ⟨h.1.1.1, h.1.1.2, h.1.2, fun lin w' e => ?_⟩
  cases e
  exact h.2

/-- A decidable form of `PlainAt` in backed DRAM. -/
def plainCheck (s : State) (r : Rq) (via : Via) (k : AKind) (va : W) (n a : Nat) : Bool :=
  match (resolve s r via k va n).1 with
  | .ok (acc, .dram b w) =>
    decide (b = a) && !acc.ub && decide (acc.lt = 0) && decide (reach s r.stack (homeStack s acc (.dram b w)) = .ok) &&
      freeCheck s r via k va n acc b w &&
      (partsOf a n).all (fun p => !s.poisoned p && decide (tget 0 s.softErr p = 0) &&
        s.stale.all (fun e => decide (e.1 / 2 ≠ p))) &&
      (linesOf a n).all (fun l => decide (tget 0 s.keyIds l = acc.key) && decide (tget 0 s.tags l < 8) &&
        !rowLocked s r.cid (l * 128)) && decide ((Place.dram b w).window < 2)
  | _ => false

theorem clean_of_check {s : State} {cid key a n w : Nat}
    (h1 : ((partsOf a n).all (fun p => !s.poisoned p && decide (tget 0 s.softErr p = 0) &&
        s.stale.all (fun e => decide (e.1 / 2 ≠ p)))) = true)
    (h2 : ((linesOf a n).all (fun l => decide (tget 0 s.keyIds l = key) && decide (tget 0 s.tags l < 8) &&
        !rowLocked s cid (l * 128))) = true) (h3 : w < 2) : CleanDram s cid key a n w := by
  simp only [List.all_eq_true, Bool.and_eq_true, Bool.not_eq_true', decide_eq_true_eq] at h1 h2
  refine ⟨fun p hp => ⟨(h1 p hp).1.1, (h1 p hp).1.2, fun v hv e he => ?_⟩, fun l hl => ?_, h3⟩
  · have := (h1 p hp).2 e he
    omega
  · exact ⟨(h2 l hl).1.1, (h2 l hl).1.2, (h2 l hl).2⟩

theorem plain_of_check {s : State} {r : Rq} {via : Via} {k : AKind} {va : W} {n a : Nat}
    (h : plainCheck s r via k va n a = true) : PlainAt s r via k va n a := by
  unfold plainCheck at h
  split at h
  · rename_i acc b w e
    simp only [Bool.and_eq_true, Bool.not_eq_true', decide_eq_true_eq] at h
    obtain ⟨⟨⟨⟨⟨⟨⟨rfl, hu⟩, hl⟩, hr⟩, hf⟩, h1⟩, h2⟩, h3⟩ := h
    refine ⟨acc, .dram b w, _, Prod.ext e rfl, hu, hl, hr, free_of_check hf, .inr ⟨w, rfl, ?_⟩⟩
    exact clean_of_check h1 h2 h3
  · cases h

/-- The base part with an identity vector page table, a grant of 4 slices, VL = 4 and SEW as the code says. -/
def vecSt (sew vl : Nat) (f : Hart → Hart) : State :=
  (base.modCtx 1 (fun c => { c with vpt := [{ vpn := 0, psz := 11, ppn := 0, w := true, r := true }] })).modHart 0
    (fun x => f { x with cur := 4, next := 4, vtype := wd sew, vl := wd vl })
def v32s : State := vecSt 2 4 id

theorem wit_plain_scalar : plainCheck base (rqOf base 0) .scalar .read 0x8000 8 0x8000 = true := by decide +kernel
theorem wit_plain_vector : plainCheck v32s (rqOf v32s 0) .vector .write 0x8000 16 0x8000 = true := by decide +kernel

theorem noPosted_of {s : State} {h : Nat} (e : s.reqs = [] ∧ s.winParts = []) : NoPosted s h := by
  constructor <;> intro x hx
  · rw [e.1] at hx
    cases hx
  · rw [e.2] at hx
    cases hx

/-- The base part with 0x8000 in s5 and 3 in s6. -/
def sc : State := withHart (fun x => (x.wr 5 0x8000).wr 6 3)
theorem sc_quiet : Quiet sc 0 := ⟨by decide, by decide, by decide, noPosted_of (by decide)⟩

theorem wit_ScalarLoads :
    (∃ f, loadOf (sc.hart 0) (.ldhTl2 7 5 2) = some (7, 0x8002, 2, f)) ∧ 0x8002 % 2 = 0 ∧
      PlainAt sc (rqOf sc 0) .scalar .read 0x8002 2 0x8002 ∧
      loadQOf (sc.hart 0) (.ldqTl3 62 5 0) = some (62, 0x8000) ∧ PlainAt sc (rqOf sc 0) .scalar .read 0x8000 16 0x8000 :=
  ⟨⟨_, rfl⟩, by decide, plain_of_check (by decide +kernel), rfl, plain_of_check (by decide +kernel)⟩
theorem wit_ScalarStores : storeOf (sc.hart 0) (.stqTl2 62 5 16) = some (0x8010, 16, 0) ∧
    PlainAt sc (rqOf sc 0) .scalar .write 0x8010 16 0x8010 := ⟨by decide, plain_of_check (by decide +kernel)⟩
theorem wit_Atomics : (∃ f, amoOf (sc.hart 0) (.amocas 1 2 3 5 false .co) = some (1, 0x8000, 4, f)) ∧
    PlainAt sc (rqOf sc 0) .scalar .amo 0x8000 4 0x8000 ∧ PlainAt sc (rqOf sc 0) .scalar .amo ((sc.hart 0).rd 5) 16 0x8000 :=
  ⟨⟨_, rfl⟩, plain_of_check (by decide +kernel), plain_of_check (by decide +kernel)⟩

/-! The vector statements. -/

theorem v_ready {sew vl : Nat} {f : Hart → Hart} (h1 : imageBars (vecSt sew vl f) = false)
    (h2 : fld (vctxOf (vecSt sew vl f)).vtype 63 1 = 0) (h3 : ((vecSt sew vl f).hart 0).streams = [])
    (h4 : ((vecSt sew vl f).hart 0).popped = []) : VecReady (vecSt sew vl f) 0 (vctxOf (vecSt sew vl f)) :=
  ⟨.inl rfl, rfl, h1, h2, rfl, h3, h4⟩
theorem v32_ready : VecReady v32s 0 (vctxOf v32s) :=
  v_ready (by decide +kernel) (by decide +kernel) (by decide +kernel) (by decide +kernel)

theorem wit_VectorIntegers :
    ∃ l, intLane (vctxOf v32s) (v32s.hart 0) (agentRegs v32s) (.vadd 4 { k := 1, z := true, n := false, src := .v 3, a := 2 }) = some l ∧
      LaneReady (v32s.hart 0) (vctxOf v32s) l := ⟨_, rfl, by decide +kernel, rfl, rfl, by decide +kernel⟩
theorem wit_VectorWidening :
    (∃ l, mixLane (vctxOf v32s) (v32s.hart 0) (agentRegs v32s) (.vwmul 4 { k := 0, z := true, n := true, src := .v 3, a := 2 }) = some l ∧
      LaneReady (v32s.hart 0) (vctxOf v32s) l) ∧
    ∃ l, mixLane (vctxOf v32s) (v32s.hart 0) (agentRegs v32s) (.vnsra 4 { k := 0, z := false, n := false, src := .i 63, a := 2 }) = some l ∧
      LaneReady (v32s.hart 0) (vctxOf v32s) l :=
  ⟨⟨_, rfl, by decide +kernel, by decide +kernel, by decide +kernel, by decide +kernel⟩,
    ⟨_, rfl, by decide +kernel, by decide +kernel, by decide +kernel, by decide +kernel⟩⟩
theorem wit_VectorFloats :
    (∃ l, floatLane (vctxOf v32s) (v32s.hart 0) (agentRegs v32s) (.vfma 4 { k := 0, z := true, src := .s 3, a := 2, c := 5 }) = some l ∧
      LaneReady (v32s.hart 0) (vctxOf v32s) l) ∧
    let s := vecSt 1 4 id
    ∃ l, floatLane (vctxOf s) (s.hart 0) (agentRegs s) (.vfcvt 4 { k := 0, z := true, kind := 1, a := 2 }) = some l ∧
      LaneReady (s.hart 0) (vctxOf s) l :=
  ⟨⟨_, rfl, by decide +kernel, by decide +kernel, by decide +kernel, by decide +kernel⟩,
    ⟨_, rfl, by decide +kernel, by decide +kernel, by decide +kernel, by decide +kernel⟩⟩
theorem wit_VectorMasks :
    (∃ l, maskLane (vctxOf v32s) (v32s.hart 0) (agentRegs v32s) (.vmflt 1 { k := 0, z := false, n := false, src := .s 1, a := 2 }) = some l ∧
      KReady (v32s.hart 0) (vctxOf v32s) l) ∧
    ∃ l, maskLane (vctxOf v32s) (v32s.hart 0) (agentRegs v32s) (.kset 15 6) = some l ∧ KReady (v32s.hart 0) (vctxOf v32s) l :=
  ⟨⟨_, rfl, by decide +kernel, by decide +kernel, by decide +kernel⟩,
    ⟨_, rfl, by decide +kernel, by decide +kernel, by decide +kernel⟩⟩
theorem wit_VectorToScalar :
    QueueDone v32s 0 ∧ ∃ l, scalarLane (vctxOf v32s) (v32s.hart 0) (agentRegs v32s) (.kfirst 7 3) = some l ∧
      (∀ g ∈ l.srcs, g.base % g.g = 0) ∧ l.bad = false ∧ (l.masks = true → (vctxOf v32s).vl ≤ (v32s.hart 0).mlen) :=
  ⟨fun _ => by decide +kernel, _, rfl, by decide +kernel, by decide +kernel, fun _ => by decide +kernel⟩
theorem wit_VectorPermutationsAndCompress :
    (∃ l, shuffleLane (vctxOf v32s) (v32s.hart 0) (agentRegs v32s) (.vslideup 4 { k := 0, z := false, n := false, src := .i 4, a := 2 }) = some l ∧
      LaneReady (v32s.hart 0) (vctxOf v32s) l) ∧
    LaneReady (v32s.hart 0) (vctxOf v32s) (bcastLane (vctxOf v32s) (v32s.hart 0) (agentRegs v32s) 4
      { k := 0, z := false, src := .i 63 }) ∧
    ((vctxOf v32s).grp 4).overlaps ((vctxOf v32s).grp 2) = false ∧ (4 : VReg).val % (vctxOf v32s).lmul = 0 :=
  ⟨⟨_, rfl, by decide +kernel, by decide +kernel, by decide +kernel, by decide +kernel⟩,
    ⟨by decide +kernel, by decide +kernel, by decide +kernel, by decide +kernel⟩, by decide +kernel, by decide +kernel⟩
/-- A SEW code of 3 and the reserved code 4. -/
theorem wit_SetVectorLength : v32s.agent = .hart 0 ∧ (v32s.hart 0).vq = [] ∧
    (v32s.band? (v32s.hart 0).band).all (fun b => b.incoming.isNone) = true ∧ (3#3).toNat ≤ 3 ∧ ¬(4#3).toNat ≤ 3 := by
  decide +kernel
/-- An illegal VTYPE of a hart that issues; the head of a queue under it. -/
def badH : State := vecSt 2 4 (fun x => { x with vtype := vtypeReset })
def badQ : State :=
  { vecSt 2 4 (fun x => { x with vq := [{ entryOf x (.vadd 4 { k := 0, z := false, n := false, src := .v 3, a := 2 }) with
      vtype := vtypeReset }] }) with agent := .queue 0 }
/-- VADD at the head of a queue; MOPA, VWAIT, VSTREAM, a gather and a scatter as a hart issues them; COPY at offset 1 and
COPYX. -/
theorem wit_IllegalVtypeTraps :
    (badQ.agent = .queue 0 ∧ (∃ e gs, (badQ.hart 0).vq = [e] ∧
      depForm (vctxOf badQ) (badQ.hart 0) (agentRegs badQ) e.instr = some (gs, false) ∧ ∀ g ∈ gs, g.base % g.g = 0) ∧
      fld (vctxOf badQ).vtype 63 1 = 1 ∧ imageBars badQ = false ∧ (badQ.core 0).resident = some (badQ.hart 0).cid ∧
      handlerOf badQ 0 0x02 ≠ 0 ∧ (badQ.hart 0).inHandler = false) ∧
    (badH.agent = .hart 0 ∧ (badH.hart 0).vq = [] ∧ fld (vctxOf badH).vtype 63 1 = 1 ∧ fld (badH.hart 0).vtype 63 1 = 1 ∧
      imageBars badH = false ∧ (badH.core 0).resident = some (badH.hart 0).cid ∧ handlerOf badH 0 0x02 ≠ 0 ∧
      (badH.hart 0).inHandler = false) ∧
    (([.mopa 7 2 4, .mgath 0 { fmt := none, l := false, t := true, nm1 := 0, m := false, b := 8, a := 0 },
       .vstream 24 { fmt := none, c := 0, b := 1, a := 2 }, .vwait 1 { k := 0, ge := false, sc := .dv, c := 9, b := 4, a := 2 },
       .vgatherpTl2 4 { plainMem with b := 8 }, .vscatterTl2 4 { plainMem with b := 8 }] : List Instr).all (fun i =>
      match depForm (vctxOf badH) (badH.hart 0) (agentRegs badH) i with
      | some (gs, clash) => !clash && gs.all (fun g => decide (g.base % g.g = 0))
      | none => false)) = true ∧
    (((badH.modHart 0 (fun x => x.wr 5 1)).hart 0).rd 5 = 1 ∧ badH.reqs = [] ∧ badH.winParts = [] ∧ (badH.hart 0).colPend = 0 ∧
      ((badH.hart 0).rd 0).toNat = 0 ∧ descOk (badH.natAt (spadAddr 0 0) 64) = true) := by
  refine ⟨⟨by decide +kernel, ⟨_, _, rfl, rfl, by decide +kernel⟩, by decide +kernel, by decide +kernel, by decide +kernel,
    by decide +kernel, by decide +kernel⟩, by decide +kernel, by decide +kernel, by decide +kernel⟩

/-- VL = 1 and 0x8000 in s5, 0x8080 in s6. -/
def vm (sew : Nat) : State := vecSt sew 1 (fun x => (x.wr 5 0x8000).wr 6 0x8080)
def m5 : VMem := { plainMem with a := 5 }
def flat (va : W) : Nat := va.toNat

theorem wit_VectorLoads :
    VecReady (vm 2) 0 (vctxOf (vm 2)) ∧ vmemOf (.vldTl2 4 m5) = some (.packed, false, 4, m5, 0) ∧
    VmemReady ((vm 2).hart 0) (vctxOf (vm 2)) .packed false 4 m5 (fmtOf (vctxOf (vm 2)) false m5.fmt) ∧
    ∀ j q, 0 ≤ j → j < 1 → ((vm 2).hart 0).kbit 0 j = true → q < 1 →
      (fieldAt (vctxOf (vm 2)) ((vm 2).hart 0) (agentRegs (vm 2)) .packed 4 m5 0 0 j q).va.toNat % elemBytes 0 = 0 ∧
      PlainAt (vm 2) (rqOf (vm 2) 0) .vector .read
        (fieldAt (vctxOf (vm 2)) ((vm 2).hart 0) (agentRegs (vm 2)) .packed 4 m5 0 0 j q).va (elemBytes 0)
        (flat (fieldAt (vctxOf (vm 2)) ((vm 2).hart 0) (agentRegs (vm 2)) .packed 4 m5 0 0 j q).va) := by
  refine ⟨v_ready (by decide +kernel) (by decide +kernel) (by decide +kernel) (by decide +kernel), by decide +kernel,
    by unfold VmemReady; decide +kernel, fun j q _ hj _ hq => ?_⟩
  obtain rfl : j = 0 := by omega
  obtain rfl : q = 0 := by omega
  exact ⟨by decide +kernel, plain_of_check (by decide +kernel)⟩
theorem wit_VectorStores :
    vmemOf (.vscatterTl3 4 { m5 with b := 8 } 8) = some (.indexed, true, 4, { m5 with b := 8 }, 8) ∧
    VmemReady ((vm 2).hart 0) (vctxOf (vm 2)) .indexed true 4 { m5 with b := 8 } (fmtOf (vctxOf (vm 2)) true none) ∧
    ∀ j q, 0 ≤ j → j < 1 → ((vm 2).hart 0).kbit 0 j = true → q < 1 →
      let f := fieldAt (vctxOf (vm 2)) ((vm 2).hart 0) (agentRegs (vm 2)) .indexed 4 { m5 with b := 8 } 8 0 j q
      f.va.toNat % elemBytes 0 = 0 ∧
        PlainAt (vm 2) (rqOf (vm 2) 0) .vector .write f.va (elemBytes 0) (flat f.va) := by
  refine ⟨by decide +kernel, by unfold VmemReady; decide +kernel, fun j q _ hj _ hq => ?_⟩
  obtain rfl : j = 0 := by omega
  obtain rfl : q = 0 := by omega
  exact ⟨by decide +kernel, plain_of_check (by decide +kernel)⟩

/-- A load of one element at 0x8000 that does not translate, is not permitted, is misaligned, or reads a poisoned part or a line
of another key; a store of one to such a line. -/
def vmPage (l : List VptE) : State := (vm 2).modCtx 1 (fun c => { c with vpt := l })
def vmPoison : State := (vm 2).setPoison (0x8000 / 16) true
def vmKey : State := { vm 2 with keyIds := [(0x8000 / 128, 5)] }
def vmOdd : State := (vm 2).modHart 0 (fun x => x.wr 5 0x8001)
def errIs (s : State) (c : Nat) : Bool :=
  match (resolve s (rqOf s 0) .vector .read 0x8000 4).1 with
  | .error (.trap d _ _) => decide (d = c)
  | _ => false
theorem err_of {s : State} {c : Nat} (h : errIs s c = true) :
    ∃ w j, (resolve s (rqOf s 0) .vector .read 0x8000 4).1 = .error (.trap c w j) := by
  unfold errIs at h
  split at h
  · rename_i d w j e
    exact ⟨w, j, by rw [e, of_decide_eq_true h]⟩
  · cases h
/-- A checked access to free DRAM at its own address. -/
def elemCheck (s : State) (k : AKind) (f : Acc → Nat → Bool) : Bool :=
  match (resolve s (rqOf s 0) .vector k 0x8000 4).1 with
  | .ok (acc, .dram b w) =>
    decide (b = 0x8000) && !acc.ub && decide (acc.lt = 0) &&
      decide (reach s (rqOf s 0).stack (homeStack s acc (.dram b w)) = .ok) &&
      freeCheck s (rqOf s 0) .vector k 0x8000 4 acc b w && f acc b
  | _ => false
theorem elem_of {s : State} {k : AKind} {f : Acc → Nat → Bool} (h : elemCheck s k f = true) :
    ∃ acc w e, resolve s (rqOf s 0) .vector k 0x8000 4 = (.ok (acc, .dram 0x8000 w), e) ∧ acc.ub = false ∧ acc.lt = 0 ∧
      reach s (rqOf s 0).stack (homeStack s acc (.dram 0x8000 w)) = .ok ∧
      FreeAccess s (rqOf s 0) .vector k 0x8000 4 acc (.dram 0x8000 w) ∧ f acc 0x8000 = true := by
  unfold elemCheck at h
  split at h
  · rename_i acc b w e
    simp only [Bool.and_eq_true, Bool.not_eq_true', decide_eq_true_eq] at h
    obtain ⟨⟨⟨⟨⟨rfl, hu⟩, hl⟩, hr⟩, hf⟩, hx⟩ := h
    exact ⟨acc, w, _, Prod.ext e rfl, hu, hl, hr, free_of_check hf, hx⟩
  · cases h
theorem poison_of {s : State} (h : elemCheck s .read (fun acc a =>
      (partsOf a 4).any s.poisoned || (linesOf a 4).any (fun l => decide (tget 0 s.keyIds l ≠ acc.key))) = true)
    (h1 : s.softErr = [] ∧ s.stale = [] ∧ s.tags = []) : PoisonAt s (rqOf s 0) 0x8000 4 := by
  obtain ⟨acc, w, e, hr, hu, hl, hw, hf, hx⟩ := elem_of h
  refine ⟨acc, _, e, hr, hu, hl, hw, hf, .inr ⟨_, w, rfl, fun q _ => ⟨by rw [h1.1]; rfl, fun v _ e he => ?_⟩,
    fun l _ => by rw [h1.2.2]; exact Nat.succ_pos 7, ?_⟩⟩
  · rw [h1.2.1] at he
    cases he
  · simpa only [Bool.or_eq_true, List.any_eq_true, decide_eq_true_eq] using hx
theorem wit_ElementTraps :
    ElemFault (vmPage []) (rqOf (vmPage []) 0) .read 4 [0x8000] flat 0x04 0x8000 ∧
    (let s := vmPage [{ vpn := 0, psz := 11, ppn := 0, w := true, r := false }]
     ElemFault s (rqOf s 0) .read 4 [0x8000] flat 0x05 0x8000) ∧
    ElemFault vmOdd (rqOf vmOdd 0) .read 4 [0x8001] flat 0x06 0x8001 ∧
    ElemFault vmPoison (rqOf vmPoison 0) .read 4 [0x8000] flat 0x08 0x8000 ∧
    ElemFault vmKey (rqOf vmKey 0) .read 4 [0x8000] flat 0x08 0x8000 ∧
    (handlerOf (vm 2) 0 0x04 ≠ 0 ∧ ((vm 2).hart 0).inHandler = false ∧ ((vm 2).hart 0).vq = [] ∧ startAt (vm 2) 0 = 0 ∧
      ((vm 2).hart 0).kbit 0 0 = true) ∧
    (OtherKeyAt vmKey (rqOf vmKey 0) 0x8000 4 0x8000 ∧ vmKey.refusals = [] ∧
      ∃ a, a / 128 = 0x8000 / 128 ∧ (a < 0x8000 ∨ 0x8000 + 4 ≤ a)) := by
  have one {p : W → Prop} {v : W} (h : p v) : FirstOf p [v] v := ⟨[], [], rfl, h, by simp⟩
  have bad {s : State} (h : PoisonAt s (rqOf s 0) 0x8000 4) : ElemFault s (rqOf s 0) .read 4 [0x8000] flat 0x08 0x8000 :=
    .inr (.inr (.inr ⟨rfl, rfl, fun v hv => by
      obtain rfl := List.mem_singleton.1 hv
      exact ⟨by decide, .inr h⟩, one h⟩))
  refine ⟨.inl ⟨rfl, one (err_of (by decide +kernel))⟩, .inr (.inl ⟨rfl, fun v hv => ?_, one (err_of (by decide +kernel))⟩),
    .inr (.inr (.inl ⟨rfl, fun v hv => ?_, one (by decide)⟩)), bad (poison_of (by decide +kernel) (by decide +kernel)),
    bad (poison_of (by decide +kernel) (by decide +kernel)), by decide +kernel, ?_, by decide +kernel, 0x8004, by decide, by decide⟩
  · obtain rfl := List.mem_singleton.1 hv
    exact .inl (err_of (by decide +kernel))
  · obtain rfl := List.mem_singleton.1 hv
    have h : (match (resolve vmOdd (rqOf vmOdd 0) .vector .read 0x8001 4).1 with
      | .ok a => decide (a.1.lt = 0)
      | .error _ => false) = true := by decide +kernel
    split at h
    · rename_i a e
      exact ⟨a, e, of_decide_eq_true h⟩
    · cases h
  · obtain ⟨acc, w, e, hr, hu, hl, hw, hf, hx⟩ := elem_of (s := vmKey) (k := .write)
      (f := fun acc a => (linesOf a 4).any (fun l => decide (tget 0 vmKey.keyIds l ≠ acc.key))) (by decide +kernel)
    exact ⟨acc, w, e, hr, hu, hl, hw, hf, by simpa only [List.any_eq_true, decide_eq_true_eq] using hx⟩

/-- A decidable form of the ranges of plain bytes, at their own addresses. -/
def rangeCheck (s : State) (r : Rq) (via : Via) (k : AKind) (va : W) (n : Nat) : Bool :=
  (piecesOf va n).all (fun e => plainCheck s r via k e.1 e.2 (flat e.1) && decide (e.1.toNat + e.2 < 2 ^ 63))
theorem range_of_check {s : State} {r : Rq} {via : Via} {k : AKind} {va : W} {n : Nat}
    (h : rangeCheck s r via k va n = true) :
    ∀ e ∈ piecesOf va n, PlainAt s r via k e.1 e.2 (flat e.1) ∧ ∀ i, i < e.2 → flat (e.1 + wd i) = flat e.1 + i := by
  intro e he
  simp only [rangeCheck, List.all_eq_true, Bool.and_eq_true, decide_eq_true_eq] at h
  refine ⟨plain_of_check (h e he).1, fun i hi => ?_⟩
  have := (h e he).2
  simp only [flat, wd]
  bv_omega

/-- A block load and store of format 17 with a side list at s6. -/
def mq : VMem := { plainMem with a := 5, c := 6, fmt := some 17 }
theorem live0 {k : KReg} {fmt q : Nat} (h : liveBlock ((vm 2).hart 0) (vctxOf (vm 2)) k fmt 0 q) :
    q = (blockOf (vctxOf (vm 2)) fmt 0).1 := by
  obtain ⟨j, _, hj, _, rfl⟩ := h
  have : j < 1 := hj
  obtain rfl : j = 0 := by omega
  rfl
theorem wit_BlockTransfers :
    vblockOf (.vldqTl2 4 mq) = some (false, 4, mq, 0, true) ∧ vblockOf (.vstqTl2 4 mq) = some (true, 4, mq, 0, true) ∧
    VblockReady ((vm 2).hart 0) (agentRegs (vm 2)) (vctxOf (vm 2)) 4 mq 17 true ∧
    startAt (vm 2) 0 = 0 ∧
    ∀ q, liveBlock ((vm 2).hart 0) (vctxOf (vm 2)) 0 17 0 q → ∀ k, k = .read ∨ k = .write →
      PlainRange (vm 2) (rqOf (vm 2) 0) k (0x8000 + wd (q * blkBytes 17)) (blkBytes 17) flat ∧
      PlainAt (vm 2) (rqOf (vm 2) 0) .vector k (0x8080 + wd (8 * q)) 8 (flat (0x8080 + wd (8 * q))) := by
  refine ⟨by decide +kernel, by decide +kernel, by unfold VblockReady; decide +kernel, by decide +kernel,
    fun q hq k hk => ?_⟩
  obtain rfl : q = 0 := (live0 hq).trans (by decide +kernel)
  refine ⟨?_, ?_⟩ <;> rcases hk with rfl | rfl
  · exact range_of_check (by decide +kernel)
  · exact range_of_check (by decide +kernel)
  · exact plain_of_check (by decide +kernel)
  · exact plain_of_check (by decide +kernel)
/-- Core 0's own scratchpad as the peer: the index names core 0, offset 0. -/
theorem wit_PeerAccesses :
    peerOf (.vgatherpTl2 4 { plainMem with b := 8 }) = some (false, 4, { plainMem with b := 8 }, 0) ∧
    peerOf (.vscatterpTl3 4 { plainMem with b := 8, c := 15 } 4) = some (true, 4, { plainMem with b := 8, c := 15 }, 4) ∧
    (vctxOf (vm 2)).idxG = 1 ∧ fmtWhole (fmtOf (vctxOf (vm 2)) false none) = true ∧
    fmtInt (fmtOf (vctxOf (vm 2)) false none) || decide ((vctxOf (vm 2)).sew = 32) = true ∧
    ((vctxOf (vm 2)).grp 4).overlaps ((vctxOf (vm 2)).index 8) = false ∧
    crewOn (vm 2) 1 0 = true ∧ reach (vm 2) 0 ((peerPlace (((vm 2).hart 0).elem ((vctxOf (vm 2)).index 8) 0) 0).1 / 4) = .ok ∧
    VecFree (vm 2) .write ∧ VecFree (vm 2) .read ∧ (peerBad (vm 2) 0 4 0 0 false = false ∧ peerBad (vm 2) 0 4 0 2 false = true) := by decide +kernel
theorem wit_Streams :
    let s := vecSt 2 4 (fun x => { x.wr 5 0x8000 with streams :=
      [(24, { base := 0x8000, len := 0, stride := none, fmt := 0, sew := 2, lm := 0, mfc := 0, cursor := 0, fetched := [] })] })
    let st : Stream := { base := 0x8000, len := 0, stride := none, fmt := 0, sew := 2, lm := 0, mfc := 0, cursor := 0, fetched := [] }
    (s.agent = .hart 0 ∧ imageBars s = false ∧ fld (vctxOf s).vtype 63 1 = 0 ∧ (24 : VReg).val % (vctxOf s).lmul = 0 ∧
      (vctxOf s).sew = 32 ∧ fmtWhole (fmtOf (vctxOf s) false none) = true) ∧
    (s.cutAt = none ∧ (s.hart 0).popped = [] ∧ startAt s 0 = 0 ∧ (vctxOf s).vl ≠ 0 ∧
      (s.hart 0).streams = [((24 : VReg).val, st)] ∧ st.sew = fld (vctxOf s).vtype 0 3 ∧ st.lm = fld (vctxOf s).vtype 3 3 ∧
      ((vctxOf s).grp 4).overlaps ((vctxOf s).grp 24) = false ∧ ∀ j, j < 4 → st.len ≤ st.cursor + j) := by decide +kernel
/-- One flag at 0x8000 that equals its expected value, 0. -/
theorem wit_FlagWaitCompletes :
    let s := vecSt 3 1 (fun x => { x with v := [(2 * 0x6000 + 1, 0x80)] })
    VecReady s 0 (vctxOf s) ∧ (s.hart 0).wait = none ∧ (vctxOf s).sew = 64 ∧
      wd ((s.hart 0).elem ((vctxOf s).grp 2) 0) = 0x8000 ∧ (s.hart 0).elem ((vctxOf s).grp 3) 0 = s.natAt 0x8000 8 ∧
      PlainAt s (rqOf s 0) .vector .read 0x8000 8 0x8000 :=
  ⟨v_ready (by decide +kernel) (by decide +kernel) (by decide +kernel) (by decide +kernel), by decide +kernel,
    by decide +kernel, by decide +kernel, by decide +kernel, plain_of_check (by decide +kernel)⟩

/-! The engine statements. -/

/-- The base part under SEW 32, VL 4, with the context resident on its core. -/
theorem wit_TileProducts : MatReady v32s 0 (vctxOf v32s) ∧
    (∃ f, tileAfter (vctxOf v32s) (v32s.hart 0) (v32s.core 0) (.mopa 7 2 3) = some (7, f)) ∧
    tileReady (vctxOf v32s) (.mopa 7 2 3) :=
  ⟨⟨.inl rfl, rfl, by decide +kernel, by decide +kernel, by decide +kernel, by decide +kernel, by decide +kernel⟩, ⟨_, rfl⟩,
    fun d a b h => by
      rcases h with h | h <;> cases h
      exact ⟨by decide +kernel, by decide +kernel, by decide +kernel, by decide +kernel⟩⟩
theorem wit_TileMoves : fld (vctxOf v32s).vtype 63 1 = 0 ∧ (vctxOf v32s).sew = 32 ∧ (31 : VReg).val % (vctxOf v32s).lmul = 0 ∧
    (127#7).toNat < 128 ∧ (63#7).toNat < 64 := by decide +kernel
theorem wit_LatchGather :
    let b : MGath := { fmt := none, l := false, t := true, nm1 := 0, m := false, b := 8, a := 0 }
    (vctxOf v32s).idxG = 1 ∧ (47#6).toNat + b.nm1.toNat < 48 ∧
      (rdS (agentRegs v32s) 0 + wd ((v32s.hart 0).elem ((vctxOf v32s).index 8) 0)).toNat = 0 ∧ 0 % rowAlign 0 = 0 ∧
      0 + rowBytes 0 64 ≤ spBytes v32s.sdp ∧ (∀ q ∈ partsOf (spadAddr 0 0) (rowBytes 0 64), v32s.poisoned q = false) := by
  decide +kernel
theorem wit_TileMemory :
    let b : MTile := { fmt := none, nm1 := 0, c := 0, fr := 63, a := 5 }
    mtileOf (.mldTl2 7 b) = some (false, 7, b, 0) ∧ mtileOf (.mstTl3 7 b 0) = some (true, 7, b, 0) ∧
      b.fr.toNat + b.nm1.toNat < 64 ∧ mtileVa (agentRegs (vm 2)) b 0 0 0 = 0x8000 ∧
      (0x8000#64).toNat % rowAlign 0 = 0 ∧ rowBytes 0 128 = 512 ∧
      EngineRange (vm 2) (rqOf (vm 2) 0) .read 0x8000 512 flat ∧ EngineRange (vm 2) (rqOf (vm 2) 0) .write 0x8000 512 flat ∧
      ∀ u ∈ (mstUnits 0 0 0 0x8000 ((upto 0 128).map (fun j => tileEl ((vm 2).core 0) 7 63 j))).1,
        EngineRange (vm 2) (rqOf (vm 2) 0) .write u.va u.n flat := by
  refine ⟨by decide, by decide, by decide, by decide +kernel, by decide, by decide, range_of_check (by decide +kernel),
    range_of_check (by decide +kernel), ?_⟩
  have h : (mstUnits 0 0 0 0x8000 ((upto 0 128).map (fun j => tileEl ((vm 2).core 0) 7 63 j))).1.all
      (fun u => rangeCheck (vm 2) (rqOf (vm 2) 0) .engine .write u.va u.n) = true := by decide +kernel
  rw [List.all_eq_true] at h
  exact fun u hu => range_of_check (h u hu)
def st0 (f : Core → Core) : State := { base.modCore 0 f with time := 5 }
/-- A copy node that runs. -/
def forkNode : Node :=
  { kind := .copy, st := .running, graph := 5, ix := 0, stack := 0, prio := 2, cid := 1, stamp := [0, 0, 0, 0, 0], readyAt := 0,
    waited := 0, pc := 0, harts := [], reqs := [], pay := 0, vl := 0, sewc := 0, label := 0, cursor := none,
    band := none, fword := 0, fva := 0 }
theorem wit_ForkStarts :
    let s := (base.modHart 0 (fun x => (x.wr 5 0x4002).wr 6 0x4082))
    let stopped := s.modCore 0 (fun c => { c with mseq := { Seq.reset with phase := .stopped, owner := 0 }
                                                  cseq := { Seq.reset with phase := .stopped, owner := 0 } })
    (s.agent = .hart 0 ∧ (s.hart 0).vq = [] ∧ s.reqs = [] ∧ s.winParts = [] ∧ (s.hart 0).colPend = 0 ∧
      wellFormed (.fork { noFork with a := 5, b := 6 }) = true ∧
      (s.core 0).resident = some (s.hart 0).cid ∧ (s.core 0).nodeCopy = none ∧ goodTarget ((s.hart 0).rd 5) = true ∧
      goodTarget ((s.hart 0).rd 6) = true ∧ (s.core 0).mseq.phase = .free ∧ (s.core 0).cseq.phase = .free) ∧
    (wellFormed (.fork { noFork with rm := true, rc := true }) = true ∧
      wellFormed (.fork { noFork with xm := true, xc := true, a := 5 }) = true ∧
      (stopped.core 0).mseq.phase = .stopped ∧ (stopped.core 0).mseq.owner = 0 ∧ (stopped.core 0).cseq.phase = .stopped ∧
      (stopped.core 0).resident = some (stopped.hart 0).cid) ∧
    (let n : CopyCtx := { CopyOf.none with node := some 6 }
     let t : State := { (s.modCore 0 (fun c => { c with nodeCopy := some n })) with nodes := [(6, forkNode)] }
     (t.core 0).nodeCopy = some n ∧ n.node = some 6 ∧ t.node? 6 = some forkNode ∧ (t.core 0).cseq.phase = .free) := by decide +kernel
/-- Sequencers of core 0 under hart 0: at rest beside one of another hart, running, and both stopped. -/
theorem wit_RendezvousOfHarts :
    let q (p : SeqPhase) (o : Nat) : Seq := { Seq.reset with phase := p, owner := o, fflags := 1, satf := 1 }
    let st (a b : Seq) : State := st0 (fun c => { c with mseq := a, cseq := b })
    (let s := st (q .rest 0) (q .running 1)
     s.agent = .hart 0 ∧ ∀ m : Bool, ((s.core 0).seq m).owner = 0 → ((s.core 0).seq m).phase = .free ∨ ((s.core 0).seq m).phase = .rest) ∧
    (let s := st (q .running 0) (q .stopped 0)
     ((s.core 0).seq true).owner = 0 ∧ ((s.core 0).seq true).phase = .running) ∧
    (let s := st (q .stopped 0) (q .stopped 0)
     (s.hart 0).vq = [] ∧ handlerOf s 0 0x15 ≠ 0 ∧ (s.hart 0).inHandler = false ∧ ((s.core 0).seq true).owner = 0 ∧
       ((s.core 0).seq true).phase = .stopped ∧ ∀ n : Bool, ((s.core 0).seq n).phase ≠ .running) ∧
    (let s := st (q .stopped 1) (q .stopped 0)
     ((s.core 0).seq false).owner = 0 ∧ ((s.core 0).seq false).phase = .stopped ∧ (s.core 0).mseq.owner ≠ 0) := by decide +kernel
/-- A copy of a copy sequencer, under way or faulted. -/
def seqCopy (f : Option EngFault) : CopyCtx := { CopyOf.none with seq := true, cid := 1, fault := f }
/-- Both sequencers of core 0 run for hart 0 with s5 = 0x8000, or what `f` makes of the registers; one of them is the agent. -/
def seqSt (m : Bool) (f : Tab W → Tab W) : State :=
  let x := (vm 2).hart 0
  let q : Seq := { Seq.reset with phase := .running, owner := 0, pc := 0x42, nh := 5, s := f x.s, vtype := x.vtype, vl := x.vl }
  { (vm 2).modCore 0 (fun k => { k with mseq := q, cseq := q }) with agent := seqAgent m 0 }
/-- The last core's sequencers; a copy sequencer with a copy under way, and one whose engine is faulted. -/
theorem wit_RendezvousOfSequencers :
    ({ base with agent := .mseq 63 }.agent = .mseq 63) ∧
    (let s := { base with agent := .cseq 63 }
     s.agent = .cseq 63 ∧ (s.core 63).cfault = none ∧ CopiesOver s 63) ∧
    (let s := (seqSt false id).modCore 0 (fun k => { k with copies := [seqCopy none] })
     s.agent = .cseq 0 ∧ (s.core 0).cfault = none ∧ ¬CopiesOver s 0) ∧
    (let s := (seqSt false id).modCore 0 (fun k => { k with copies := [seqCopy (some { fword := 1, va := 2, pc := 3 })] })
     s.agent = .cseq 0 ∧ (s.core 0).cfault = some { fword := 1, va := 2, pc := 3 }) := by
  unfold CopiesOver
  decide +kernel
theorem mat_ready {s : State} {h : Nat} (a : s.agent = .mseq (h / 8) ∧ (s.core (h / 8)).mseq.owner = h ∧ (s.hart h).streams = [] ∧
      (s.hart h).popped = [] ∧ (s.core (h / 8)).mseq.refused = none ∧ (s.tl (seqTl s true (h / 8))).done = [] ∧
      (s.tl (seqTl s true (h / 8))).acc = (s.tl (seqTl s true (h / 8))).cnt) (w : s.winParts = []) :
    MatReadyBy true s h (vctxOf s) :=
  ⟨a.1, a.2.1, rfl, a.2.2.1, a.2.2.2.1, a.2.2.2.2.1, a.2.2.2.2.2.1, a.2.2.2.2.2.2, fun p hp => by rw [w] at hp; cases hp⟩
/-- ADD in both sequencers, MZERO in the copy sequencer and COPY in the matrix sequencer; MOPA under an illegal VTYPE; an MLD
whose second row is not aligned; barrier offsets not aligned and past the scratchpad; COPY under a faulted engine. -/
theorem wit_EngineStops :
    (∀ m : Bool, (seqSt m id).agent = seqAgent m 0 ∧ (encode (.add 1 2 3)).isSome = true ∧ inSeqClass m (.add 1 2 3) = false) ∧
    (inSeqClass false (.mzero 0) = false ∧ inSeqClass true (.copy 0 1) = false ∧ (encode (.mzero 0)).isSome = true ∧
      (encode (.copy 0 1)).isSome = true) ∧
    (let s := (seqSt true id).modCore 0 (fun k => { k with mseq := { k.mseq with vtype := vtypeReset } })
     MatReadyBy true s 0 (vctxOf s) ∧ fld (vctxOf s).vtype 63 1 = 1) ∧
    (let s := seqSt true (fun r => wrS r 6 0x201)
     let b : MTile := { fmt := none, nm1 := 1, c := 6, fr := 62, a := 5 }
     let va := mtileVa (s.core 0).mseq.s b 0 (fmtOf (vctxOf s) false b.fmt)
     MatReadyBy true s 0 (vctxOf s) ∧ mtileOf (.mldTl2 7 b) = some (false, 7, b, 0) ∧ b.fr.toNat + b.nm1.toNat < 64 ∧
       startBy true s 0 = 0 ∧ (va 0).toNat % rowAlign 0 = 0 ∧ (va 1).toNat % rowAlign 0 ≠ 0 ∧
       ∀ q, 0 ≤ q → q ≤ 1 → EngineRange s (rqBy true s 0) .read (va q) 512 flat) ∧
    (∀ m : Bool, (let s := seqSt m (fun r => wrS r 5 0x8008)
       (rdS ((s.core 0).seq m).s 5).toNat % 16 ≠ 0 ∧ (m = false → (s.core 0).cfault = none)) ∧
      (let s := seqSt m (fun r => wrS r 5 0x600000)
       (rdS ((s.core 0).seq m).s 5).toNat % 16 = 0 ∧ spBytes s.sdp < (rdS ((s.core 0).seq m).s 5).toNat + 16)) ∧
    (let s := (seqSt false id).modCore 0 (fun k => { k with copies := [seqCopy (some { fword := 1, va := 2, pc := 3 })] })
     s.agent = .cseq 0 ∧ (s.core 0).cfault = some { fword := 1, va := 2, pc := 3 }) := by
  refine ⟨by decide +kernel, by decide, ⟨mat_ready (by decide +kernel) (by decide +kernel), by decide +kernel⟩,
    ⟨mat_ready (by decide +kernel) (by decide +kernel), by decide, by decide, by decide +kernel, by decide +kernel, by decide +kernel,
      fun q _ hq => ?_⟩, by decide +kernel, by decide +kernel⟩
  rcases Nat.le_one_iff_eq_zero_or_eq_one.1 hq with rfl | rfl <;> exact range_of_check (by decide +kernel)
/-- The matrix sequencer ready for MOPAL, MWR, MRD, MGATH, MLD and MST; the sync instructions of both; COPY of a descriptor with
extents of 1, and COPYX. -/
theorem wit_SequencersExecute :
    (let s := seqSt true id
     let c := vctxOf s
     let b : MTile := { fmt := none, nm1 := 0, c := 0, fr := 63, a := 5 }
     let g : MGath := { fmt := none, l := true, t := true, nm1 := 0, m := false, b := 8, a := 0 }
     (MatReadyBy true s 0 c ∧ (∃ d f, tileAfter c (s.hart 0) (s.core 0) (.mopal 3 47) = some (d, f)) ∧ tileReady c (.mopal 3 47)) ∧
     (fld c.vtype 63 1 = 0 ∧ c.sew = 32 ∧ (31 : VReg).val % c.lmul = 0 ∧ startBy true s 0 = 0) ∧
     (c.idxG = 1 ∧ (47#6).toNat + g.nm1.toNat < 48 ∧ (rdS (agentRegs s) 0 + wd ((s.hart 0).elem (c.index 8) 0)).toNat = 0 ∧
       0 % rowAlign 0 = 0 ∧ 0 + rowBytes 0 128 ≤ spBytes s.sdp ∧
       ∀ q ∈ partsOf (spadAddr 0 0) (rowBytes 0 128), s.poisoned q = false) ∧
     (mtileOf (.mldTl2 7 b) = some (false, 7, b, 0) ∧ mtileOf (.mstTl3 7 b 0) = some (true, 7, b, 0) ∧
       mtileVa (agentRegs s) b 0 0 0 = 0x8000 ∧ EngineRange s (rqBy true s 0) .read 0x8000 512 flat ∧
       EngineRange s (rqBy true s 0) .write 0x8000 512 flat ∧
       ∀ u ∈ (mstUnits 0 0 0 0x8000 ((upto 0 128).map (fun j => tileEl (s.core 0) 7 63 j))).1,
         EngineRange s (rqBy true s 0) .write u.va u.n flat)) ∧
    (∀ m : Bool, (seqSt m id).agent = seqAgent m 0 ∧ CopiesOver (seqSt m id) 0 ∧ (seqSt m id).winParts = [] ∧
      (rdS (((seqSt m id).core 0).seq m).s 0).toNat ≤ ((seqSt m id).tl (tlKey 1 0 3)).cnt) ∧
    (let s := (seqSt false (fun r => wrS (wrS r 7 0x40) 6 0)).modCore 0 (fun k => { k with cseq := { k.cseq with vtype := 1 } })
     let t := s.putNat (spadAddr 0 0) 64 (2 ^ 192 * (2 ^ 160 + 2 ^ 192 + 2 ^ 224))
     let c := vctxOf t
     (t.agent = .cseq 0 ∧ (t.core 0).cfault = none ∧ (t.core 0).copies.length < 4 ∧ sptHeld t .engine .read = false ∧ t.winParts = [] ∧
       fld (t.core 0).cseq.vtype 63 1 = 0 ∧ (rdS (t.core 0).cseq.s 7).toNat = 0x40 ∧ 0x40 % 16 = 0 ∧ c.vl ≠ 0) ∧
     ((rdS (t.core 0).cseq.s 6).toNat = 0 ∧ 0 + 64 ≤ spBytes t.sdp ∧
       let body := t.natAt (spadAddr 0 0) 64
       body / 2 ^ 448 % 2 ^ 64 = 0 ∧ body / 2 ^ 128 % 2 ^ 32 = 0 ∧ body / 2 ^ 352 % 2 ^ 32 ≠ 0 ∧ body / 2 ^ 384 % 2 ^ 32 ≠ 0 ∧
         body / 2 ^ 416 % 2 ^ 32 ≠ 0) ∧
     c.sew ≤ 16 ∧ (15#4).toNat + 1 ≤ c.sew) := by
  refine ⟨⟨⟨mat_ready (by decide +kernel) (by decide +kernel), ⟨_, _, rfl⟩, by intro d a b e; rcases e with e | e <;> cases e⟩, by decide +kernel,
    by decide +kernel, by decide, by decide, by decide +kernel, range_of_check (by decide +kernel), range_of_check (by decide +kernel),
    ?_⟩, by unfold CopiesOver; decide +kernel, by decide +kernel⟩
  have h : (mstUnits 0 0 0 0x8000 ((upto 0 128).map (fun j => tileEl ((seqSt true id).core 0) 7 63 j))).1.all
      (fun u => rangeCheck (seqSt true id) (rqBy true (seqSt true id) 0) .engine .write u.va u.n) = true := by decide +kernel
  rw [List.all_eq_true] at h
  exact fun u hu => range_of_check (h u hu)
theorem wit_NodeEnds : base.agent = .hart 0 ∧ (base.hart 0).inHandler = false ∧
    (∀ m : Bool, ((base.core (0 / 8)).seq m).phase = .free) ∧ (base.hart 0).vq = [] ∧ base.reqs = [] ∧
    base.winParts = [] ∧ (base.hart 0).colPend = 0 ∧ base.refusals = [] ∧ (base.hart 0).pend = [] ∧
    (∃ b, base.band? (base.hart 0).band = some b ∧ b.incoming = none) ∧ (base.ctx (base.hart 0).cid).installed = true := by
  refine ⟨by decide +kernel, by decide +kernel, by decide +kernel, by decide +kernel, by decide +kernel, by decide +kernel,
    by decide +kernel, by decide +kernel, by decide +kernel, ⟨_, rfl, rfl⟩, by decide +kernel⟩
/-- A copy with extents 0, and one with a barrier at 0x40. -/
theorem wit_CopiesAccepted :
    let s := vecSt 1 4 (fun x => x.wr 7 0x40)
    (s.agent = .hart 0 ∧ (s.hart 0).vq = [] ∧ s.reqs = [] ∧ s.winParts = [] ∧ (s.hart 0).colPend = 0 ∧ (s.core 0).nodeCopy = none ∧ sptWaits s 0 = false ∧ (s.core 0).cfault = none ∧
      (s.core 0).copies.length < 4 ∧ fld (vctxOf s).vtype 63 1 = 0) ∧
    (((s.hart 0).rd 0).toNat % 64 = 0 ∧ ((s.hart 0).rd 0).toNat + 64 ≤ spBytes s.sdp ∧
      s.natAt (spadAddr 0 0) 64 / 2 ^ 448 % 2 ^ 64 = 0 ∧ s.natAt (spadAddr 0 0) 64 / 2 ^ 128 % 2 ^ 32 = 0) ∧
    (0x40 % 16 = 0 ∧ ((s.hart 0).rd 7).toNat + 16 ≤ 0x600000 ∧ (vctxOf s).sew ≤ 16 ∧ (15#4).toNat + 1 ≤ (vctxOf s).sew) := by
  decide +kernel
/-- A barrier with one pending arrival, the last at PSEC = 0; its offset at the top of the scratchpad. -/
theorem wit_Barriers :
    let s := (base.putNat (spadAddr 0 0x5FFFF0) 16 (2 ^ 8 + 2 ^ 24)).modHart 0 (fun x => (x.wr 5 0x5FFFF0).wr 6 65535)
    (s.agent = .hart 0 ∧ (s.hart 0).vq = [] ∧ s.reqs = [] ∧ s.winParts = [] ∧ (s.hart 0).colPend = 0 ∧
      ((s.hart 0).rd 5).toNat % 16 = 0 ∧
      ((s.hart 0).rd 5).toNat + 16 ≤ 0x600000 ∧ s.sdp = true ∧ barAt s 0 0x5FFFF0 / 2 ^ 8 % 65536 = 1 ∧
      barAt s 0 0x5FFFF0 / 2 ^ 24 % 65536 = 1 ∧ sInt 32 (barAt s 0 0x5FFFF0 / 2 ^ 40) = 0 ∧ barAt s 0 0x5FFFF0 % 16 ≠ 65535 % 16 ∧
      ((s.hart 0).rd 6).toNat = 65535) ∧
    (handlerOf base 0 0x09 ≠ 0 ∧ (base.hart 0).inHandler = false ∧ ((base.hart 0).rd 6).toNat = 0 ∧
      barAt base 0 0 / 2 ^ 8 % 65536 = 0) ∧
    (∀ m : Bool, let t := (seqSt m id).putNat (spadAddr 0 0x8000) 16 (2 ^ 8 + 2 ^ 24 + 2 ^ 5 + 3)
      t.agent = seqAgent m 0 ∧ (t.core 0).copies = [] ∧ (rdS ((t.core 0).seq m).s 5).toNat = 0x8000 ∧ 0x8000 % 16 = 0 ∧
        BarIs (barAt t 0 0x8000) 3 0 1 1 1 0 ∧ (rdS ((t.core 0).seq m).s 6).toNat = 0x8080 ∧ 3 ≠ 0x8080 % 16 ∧
        barAt (seqSt m id) 0 0x8000 = 0) ∧
    (base.agent = .hart 0 ∧ (base.hart 0).vq = [] ∧ base.reqs = [] ∧ base.winParts = [] ∧ (base.hart 0).colPend = 0 ∧
      (if (base.hart 0).ncbar = (base.hart 0).cpass then (base.hart 0).ncbar + 1 else (base.hart 0).ncbar) = 1 ∧
      crewOf_ base 0 = [0] ∧ bandOf_ base 0 = [0]) := by
  unfold BarIs
  decide +kernel
/-- A line, and bytes that touch one. -/
theorem wit_LineEncodings : (∀ n, n = 1024 → 5 < 2 ^ n) ∧ linesOf 0x8000 8 ≠ [] :=
  ⟨fun _ h => Nat.lt_of_lt_of_le (by decide : 5 < 2 ^ 3) (Nat.pow_le_pow_right (by decide) (by omega)), by decide⟩
theorem wit_TimelineReads :
    let k := tlKey 1 0 3
    let s := base.modTl k (fun t => { t with err := some { fword := 1, va := 2, pc := 3 } })
    (((base.hart 0).rd 0).toNat ≤ (base.tl (tlKey 1 0 0)).cnt) ∧ ((s.tl (tlKey (s.hart 0).cid (0 / 8) (3#2).toNat)).err.isSome = true) := by
  decide +kernel
/-- A zero header is malformed, and a disabled queue refuses; a record of one band node is accepted. -/
def oneNode : State :=
  ((vm 2).putNat 0x8000 64 (0x4752 + 2 ^ 16 + 2 ^ 24)).putNat 0x8040 128 (1 + 2 ^ 4 + 2 ^ 16 + 0x4002 * 2 ^ 64)
def launching (s : State) : State := s.modStack 0 (fun t => t.modQueue 0 (fun q => { q with cid := 1 }))
theorem wit_GraphLaunch :
    (let s := launching (vm 2)
     let hd := rangeVal s flat ((s.hart 0).rd 5) 64
     s.agent = .hart 0 ∧ (s.hart 0).vq = [] ∧ s.reqs = [] ∧ s.winParts = [] ∧ (s.hart 0).colPend = 0 ∧ ((s.stack 0).queue 0).cid = (s.hart 0).cid ∧ headerOk hd = false) ∧
    (let s := launching oneNode
     let hd := rangeVal s flat ((s.hart 0).rd 5) 64
     headerOk hd = true ∧ recordOk (rangeVal s flat ((s.hart 0).rd 5) (recBytes hd)) = true ∧
       ((s.stack 0).queue 0).st = .idle ∧ liveGraphs s 0 0 < 256 ∧
       placeWaits s ((s.stack 0).queue 0).cid 0 (rangeVal s flat ((s.hart 0).rd 5) (recBytes hd)) = false ∧
       rangeCheck s (rqOf s 0) .engine .read ((s.hart 0).rd 5) 64 = true ∧
       rangeCheck s (rqOf s 0) .engine .read ((s.hart 0).rd 5) (recBytes hd) = true) := by decide +kernel

/-! The lattice, Col, unbacked and Veld statements. -/

/-- A decidable form of `LatAt`. -/
def latCheck (s : State) (r : Rq) (k : AKind) (va : W) (t a : Nat) : Bool :=
  match resolve s r .scalar k va 1, resolve s r .scalar k va (cellBytes t) with
  | (.ok (acc, p), e), (.ok (acc2, p2), e2) =>
    decide (acc2 = acc) && decide (p2 = p) && decide (e2 = e) && decide (p = placeOf s.sdp acc.pa) && decide (acc.lt = t) &&
      decide (t ≠ 0) && !acc.ub && decide (acc.from_ = r.stack) && decide (a = homeAddr acc (placeOf s.sdp acc.pa)) &&
      decide (ltypeAt s r.cid va = t) && decide (va.toNat % cellBytes t = 0) &&
      (partsOf a (cellBytes t)).all (fun p => !s.poisoned p && decide (tget 0 s.softErr p = 0) &&
        s.stale.all (fun e => decide (e.1 / 2 ≠ p))) &&
      (linesOf a (cellBytes t)).all (fun l => decide (tget 0 s.keyIds l = acc.key) && decide (tget 0 s.tags l < 8) &&
        !rowLocked s r.cid (l * 128)) &&
      (match p with
        | .dram b w => freeCheck s r .scalar k va (cellBytes t) acc b w
        | _ => false)
  | _, _ => false
theorem lat_of_check {s : State} {r : Rq} {k : AKind} {va : W} {t a : Nat} (h : latCheck s r k va t a = true) :
    LatAt s r k va t a := by
  unfold latCheck at h
  split at h
  · rename_i acc p e acc2 p2 e2 h1 h2
    simp only [Bool.and_eq_true, Bool.not_eq_true', decide_eq_true_eq] at h
    obtain ⟨⟨⟨⟨⟨⟨⟨⟨⟨⟨⟨⟨⟨rfl, rfl⟩, rfl⟩, hp⟩, hl⟩, ht⟩, hu⟩, hf⟩, ha⟩, hy⟩, hm⟩, c1⟩, c2⟩, c3⟩ := h
    split at c3
    · rename_i b w
      refine ⟨_, e2, ?_, hl, ht, hu, hf, ha, hy, hm, clean_of_check c1 c2 (by decide), ⟨b, w, hp.symm⟩, ?_⟩
      · rintro n (rfl | rfl)
        · rw [h1, hp]
        · rw [h2, hp]
      · rw [← hp]
        exact free_of_check c3
    · cases c3
  · cases h

/-- A wait at an instruction whose time-out has expired. -/
def lateAt (i : Instr) : WaitRec := { what := i, start := 0, met := [], expired := true, note := [] }
/-- The base part with a lattice region of type `t` over the first 2 MiB. -/
def latSt (t : Nat) (f : Hart → Hart) : State :=
  (base.modCtx 1 (fun c => { c with rdt := [{ base := 0, last := 0, key := 0, cmp := false, ub := false, lt := t, bad := false }] })).modHart 0
    (fun x => f (x.wr 5 0x8000))
/-- MAX-U32 met; COUNT-VEC slots and sums; a pair; a NaN of MAX-F32; a time-out that has expired. -/
theorem wit_LatticeInstructions :
    (let s := latSt 1 (fun x => x.wr 6 7)
     Quiet s 0 ∧ (s.hart 0).colPend = 0 ∧ LatAt s (rqOf s 0) .write ((s.hart 0).rd 5 + (0 : BitVec 10).signExtend 64) 1 0x8000) ∧
    (let s := latSt 10 (fun x => x.wr 6 7)
     LatAt s (rqOf s 0) .write ((s.hart 0).rd 5 + (0 : BitVec 10).signExtend 64) 10 0x8000 ∧
     LatAt s (rqOf s 0) .read ((s.hart 0).rd 5 + (0 : BitVec 10).signExtend 64) 10 0x8000 ∧
       (0 : Nat) = ((s.hart 0).rd 0).toNat) ∧
    (let s := latSt 9 id
     LatAt s (rqOf s 0) .write ((s.hart 0).rd 5 + (16 : BitVec 10).signExtend 64) 9 0x8010 ∧ (6 : SReg).val % 2 = 0) ∧
    (let s := latSt 5 (fun x => x.wr 6 0x7F800001)
     LatAt s (rqOf s 0) .write ((s.hart 0).rd 5 + (0 : BitVec 10).signExtend 64) 5 0x8000 ∧
       f32Nan (((s.hart 0).rd 6).toNat % 2 ^ 32) = true) ∧
    (let s := latSt 1 (fun x => { x.wr 6 7 with wait := some (lateAt (.lldt 7 0 6 5)) })
     LatAt s (rqOf s 0) .read ((s.hart 0).rd 5 + (0 : BitVec 10).signExtend 64) 1 0x8000 ∧ TimedOut (s.hart 0) (.lldt 7 0 6 5)) ∧
    noteLines base 1 0 = [] := by
  refine ⟨⟨⟨by decide +kernel, by decide +kernel, by decide +kernel, noPosted_of (by decide +kernel)⟩, by decide +kernel,
    lat_of_check (by decide +kernel)⟩, ⟨lat_of_check (by decide +kernel), lat_of_check (by decide +kernel), by decide +kernel⟩,
    ⟨lat_of_check (by decide +kernel), by decide⟩, ⟨lat_of_check (by decide +kernel), by decide +kernel⟩,
    ⟨lat_of_check (by decide +kernel), _, rfl, rfl, rfl⟩, by decide +kernel⟩

/-- A vector page table whose first page is the on-chip window of stack 0: virtual 0x8000000 is its Col region. -/
def colSt (f : Hart → Hart) : State :=
  (base.modCtx 1 (fun c => { c with vpt := [{ vpn := 0, psz := 9, ppn := 0x100000, w := true, r := true }] })).modHart 0
    (fun x => f (x.wr 5 0x8000000))
/-- A decidable form of `ColRange`. -/
def colCheck (s : State) (r : Rq) (va : W) (n t off : Nat) : Bool :=
  (piecesOf va n).all (fun e =>
    match vpTranslate s r .write e.1 with
    | .ok pa =>
      match checkPlace s r .vector .read e.1 e.2 pa with
      | .ok (_, .col u o) => decide (u = t) && decide (o = off + (e.1 - va).toNat)
      | _ => false
    | _ => false)
theorem col_of_check {s : State} {r : Rq} {va : W} {n t off : Nat} (h : colCheck s r va n t off = true) :
    ColRange s r va n t off := by
  intro e he
  have := List.all_eq_true.1 h e he
  split at this
  · rename_i pa h1
    split at this
    · rename_i acc u o h2
      simp only [Bool.and_eq_true, decide_eq_true_eq] at this
      obtain ⟨rfl, rfl⟩ := this
      exact ⟨pa, acc, h1, h2⟩
    · cases this
  · cases this
theorem wit_ColInstructions :
    (let s := colSt (fun x => x.wr 6 8)
     QueueReady s 0 ∧ (rdS (agentRegs s) 6).toNat = 8 ∧
       ColRange s (rqOf s 0) (rdS (agentRegs s) 5 + (4 : BitVec 10).signExtend 64) 8 0 4 ∧ reach s 0 0 = .ok ∧ VecFree s .write) ∧
    (let s := colSt id
     (rdS (agentRegs s) 6).toNat = 0 ∧ (s.hart 0).colPend = 0 ∧ (s.hart 0).vq = [] ∧
       liveLayers (s.stack 0) 0xFFFF = 0xFFFF ∧ ((s.hart 0).rd 0).toNat ≤ (s.stack 0).colseq) ∧
    (let s := (colSt (fun x => { x.wr 6 8 with wait := some (lateAt (.colwaitLayers 7 6)) })).modStack 0
        (fun t => t.modLayer 3 (fun l => { l with st := .asleep }))
     s.agent = .hart 0 ∧ liveLayers (s.stack 0) (((s.hart 0).rd 6).toNat % 65536) = 0 ∧ TimedOut (s.hart 0) (.colwaitLayers 7 6) ∧
       ¬TimedOut (s.hart 0) (.colwaitLayers 8 6)) := by
  refine ⟨⟨⟨.inl rfl, by decide +kernel⟩, by decide +kernel, col_of_check (by decide +kernel), by decide +kernel⟩,
    by decide +kernel, rfl, by decide +kernel, ⟨_, rfl, rfl, rfl⟩, ?_⟩
  rintro ⟨w, hw, h, -⟩
  cases hw
  exact absurd h (by decide)

/-- A page walk that ends well and whose parts meet a test. -/
def pagesCheck (s : State) (l : List (W × Nat)) (f : List (Acc × W × Nat) → State → Bool) : Bool :=
  match (discardPages (rqOf s 0) l).run s with
  | .ok ps s1 => ps.all (fun e => e.1.ub) && f ps s1
  | .error _ _ => false
theorem pages_of_check {s : State} {l : List (W × Nat)} {f : List (Acc × W × Nat) → State → Bool}
    (h : pagesCheck s l f = true) :
    ∃ ps s1, (discardPages (rqOf s 0) l).run s = .ok ps s1 ∧ (∀ e ∈ ps, e.1.ub = true) ∧ f ps s1 = true := by
  unfold pagesCheck at h
  split at h
  · rename_i ps s1 e
    simp only [Bool.and_eq_true, List.all_eq_true] at h
    exact ⟨ps, s1, e, h.1, h.2⟩
  · cases h
/-- An unbacked region over the first 2 MiB, two lines of it present, and reserves on stacks 0 and 3. -/
def ubSt (n : W) : State :=
  (base.modCtx 1 (fun c => { c with
    rdt := [{ base := 0, last := 0, key := 0, cmp := false, ub := true, lt := 0, bad := false }], ubres := [(0, 4), (3, 4)],
    ubLines := [(0x101, .cache), (0x102, .cache)] })).modHart 0 (fun x => (x.wr 5 0x8080).wr 6 n)
/-- What the statement of MIGR asks where the page goes to stack 3. -/
def migrCheck (ps : List (Acc × W × Nat)) (s1 : State) : Bool :=
  let pa := (ps.map (·.1.pa)).headD 0
  let c := (ubSt 3).ctx 1
  let m := migrate s1 1 0 (scalarPage s1 1 0x8080) 3
  decide (c.curStack pa = 0) && decide (c.curStack pa ≠ 3) && decide (c.used 3 + 2 ≤ tget 0 c.ubres 3) &&
    decide (pa < 0 + scalarPage s1 1 0x8080) && decide (c.ubDir.length < 256) && decide (linStack 0 ≠ 3) &&
    [0x101, 0x102].all (fun l => decide (setLines m 3 l = [(1, l)] ∧ (setHosts m 3 l).length < ways s1.sdp))
/-- A DISCARD of one line and of none; a MIGR to the stack itself and to stack 3. -/
theorem wit_UnbackedInstructions :
    (let s := ubSt 128
     s.agent = .hart 0 ∧ (s.hart 0).vq = [] ∧ NoPosted s 0 ∧ ((s.hart 0).rd 5).toNat % 128 = 0 ∧
       ∃ ps s1, (discardPages (rqOf s 0) (pageParts (128 / 4096 + 2) ((s.hart 0).rd 5) 128)).run s = .ok ps s1 ∧
         (∀ e ∈ ps, e.1.ub = true) ∧ ps.any (fun e => decide (e.1.pa ≤ 0x101 * 128) && decide (0x101 * 128 < e.1.pa + e.2.2)) = true) ∧
    (∃ ps s1, (discardPages (rqOf (ubSt 0) 0) (pageParts (0 / 4096 + 2) 0x8080 0)).run (ubSt 0) = .ok ps s1 ∧
       (∀ e ∈ ps, e.1.ub = true) ∧ ps.isEmpty = true) ∧
    (∃ ps s1, (discardPages (rqOf (ubSt 3) 0) [(0x8080, 1)]).run (ubSt 3) = .ok ps s1 ∧ (∀ e ∈ ps, e.1.ub = true) ∧
       migrCheck ps s1 = true) := by
  refine ⟨⟨by decide +kernel, by decide +kernel, noPosted_of (by decide +kernel), by decide +kernel,
    pages_of_check (by decide +kernel)⟩, pages_of_check (by decide +kernel),
    pages_of_check (f := migrCheck) (by decide +kernel)⟩

/-- Thirty-two unbacked lines that differ from zero in the set of line 0x101, whose stack's victim buffer is full; no spill
pool. -/
def spillSt : State :=
  let lines := (upto 1 32).map (fun k => 0x101 + 15616 * k)
  let s := (ubSt 0).modCtx 1 (fun c => { c with ubLines := lines.map (fun l => (l, .cache)), ubres := [(0, 100)] })
  (lines.foldl (fun s l => s.putNat (ubAddr 1 (l * 128)) 1 1) s).modStack 0 (fun t =>
    { t with victims := (upto 0 64).map (fun i => (2, i)) })
theorem wit_SpillExhaustionRemoves :
    Quiet spillSt 0 ∧ (∃ f, loadOf (spillSt.hart 0) (.lddTl2 1 5 0) = some (1, 0x8080, 8, f)) ∧
    (match (resolve spillSt (rqOf spillSt 0) .scalar .read 0x8080 8).1 with
      | .ok a => a.1.ub && decide (a.1.lt = 0 ∧ a.1.pa = 0x8080)
      | .error _ => false) = true ∧
    svfHolds spillSt .scalar .read = false ∧ sptWaits spillSt 0 = false ∧
    (let c := spillSt.ctx 1
     (tkeys spillSt.ctxs).Nodup ∧ c.ubAt 0x101 = none ∧ c.curStack 0x8080 = 0 ∧ c.used 0 < tget 0 c.ubres 0 ∧
       ways spillSt.sdp ≤ (setLines spillSt 0 0x101).length ∧ setHosts spillSt 0 0x101 = [] ∧
       64 ≤ (spillSt.stack 0).victims.length ∧ c.freeFrame = none ∧
       (∀ v ∈ setLines spillSt 0 0x101, v.1 = 1 ∧ c.frameOf v.2 = none ∧ spillSt.natAt (ubAddr 1 (v.2 * 128)) 128 ≠ 0) ∧
       pcField c.exitv ≠ 0 ∧ ∀ h ∈ spillSt.ctxHarts 1, (spillSt.stack (h / 32)).halted = false) :=
  ⟨⟨by decide +kernel, by decide +kernel, by decide +kernel, noPosted_of (by decide +kernel)⟩, ⟨_, rfl⟩, by decide +kernel,
    by decide +kernel, by decide +kernel, by decide +kernel⟩

/-- A descriptor of subarray 1 of bank 2 of layer 3 at scratchpad 0x40, ITER = 1, and one of a lock at 0x80; the identity
vector page table; 0x40 in s5, 0x80 in s6, the byte address of a row in s7, 1 in s8. -/
def vdSt (f : Hart → Hart) : State :=
  let d := 2 ^ (64 + 2) + 2 ^ (128 + 1) + 2 ^ (192 + 3)
  ((((vecSt 2 1 id).putNat (spadAddr 0 0x40) 64 (d + 2 ^ 208)).putNat (spadAddr 0 0x80) 64 d)).modHart 0
    (fun x => f ((((x.wr 5 0x40).wr 6 0x80).wr 7 0x8000).wr 8 1))
def okIs {α : Type} (p : α → Bool) : Except VFault α → Bool
  | .ok x => p x
  | .error _ => false
theorem ok_of {α : Type} {p : α → Bool} {e : Except VFault α} (h : okIs p e = true) : ∃ x, e = .ok x ∧ p x = true := by
  cases e with
  | ok x => exact ⟨x, rfl, h⟩
  | error _ => cases h
theorem wit_VeldInstructions :
    (let s := vdSt id
     VeldReady s 0 ∧ descPlace s ((s.hart 0).rd 5) ∧ launchOk (descOf s 0 ((s.hart 0).rd 5)) = true ∧
       (∃ subs, checkRegion s (rqOf s 0) (descOf s 0 ((s.hart 0).rd 5)) = .ok subs ∧ subs.length == 1) ∧ QueueFree s 0 ∧
     descPlace s ((s.hart 0).rd 6) ∧ lockOk (descOf s 0 ((s.hart 0).rd 6)) = true ∧
       (∃ subs, checkRegion s (rqOf s 0) (descOf s 0 ((s.hart 0).rd 6)) = .ok subs ∧
         !heldBy (s.stack 0).veld subs) ∧ (s.stack 0).veld.locks.length + 0 < 16 ∧
     ((s.hart 0).rd 7).toNat % 1024 = 0 ∧ ((s.hart 0).rd 8).toNat ≤ 1008 ∧
       (∃ pas, checkRows s (rqOf s 0) (rowList ((s.hart 0).rd 7) none 1) = .ok pas ∧ pas.length == 1) ∧
       (∃ pas, checkRows s (rqOf s 0) (rowList ((s.hart 0).rd 7) (some ((s.hart 0).rd 0)) 1) = .ok pas ∧ pas.length == 2) ∧
       (∃ pas, checkRows s (rqOf s 0) (rowList ((s.hart 0).rd 7) none 0) = .ok pas ∧ pas.isEmpty) ∧
     ((s.stack 0).veld.queue 0).err = none ∧ (s.hart 0).colPend = 0) ∧
    (let s := (vdSt id).modStack 0 (fun t => { t with veld := { t.veld with
       qs := [(0, { VQueue.reset with err := some { fword := 1, va := 2, pc := 3 } })],
       locks := [(1, { cid := 1, hart := 0, band := 0, subs := [5], start := 0 })] } })
     ((s.stack 0).veld.queue 0).err.isSome = true ∧
       (s.stack 0).veld.locks.find? (fun e => e.1 == ((s.hart 0).rd 8).toNat) =
         some (((s.hart 0).rd 8).toNat, { cid := 1, hart := 0, band := 0, subs := [5], start := 0 }) ∧ 1 = (s.hart 0).cid) ∧
    (5#4).toNat < 6 := by
  refine ⟨⟨⟨by decide +kernel, by decide +kernel, noPosted_of (by decide +kernel)⟩, by unfold descPlace; decide +kernel, by decide +kernel,
    ok_of (by decide +kernel), by unfold QueueFree; decide +kernel, by unfold descPlace; decide +kernel, by decide +kernel, ok_of (by decide +kernel),
    by decide +kernel, by decide +kernel, by decide +kernel, ok_of (by decide +kernel), ok_of (by decide +kernel),
    ok_of (by decide +kernel), by decide +kernel⟩, by decide +kernel, by decide⟩

/-! The events. -/

/-- One record held; port 0 trained and down with every stack past the drop, port 1 at stacks that still drop; a ring. -/
theorem wit_RegisterWriteEvents :
    let s := (base.modCore 0 (fun c => { c with sfrq := [rec0] })).modPort 0 (fun p => { p with up := true, down := true })
    s.life = .ready ∧ reachOn s 3 3 0 15 = .ok ∧ reachOn { s with linksDown := [(1, true)] } 3 3 0 1 = .unreached ∧
      reachOn { s with linkOff := [(7, true)] } 3 3 0 1 = .held ∧ crAfter (crRead s 0 0x03B) 7 0x03B = some 7 ∧ 0x5FFFF8 + 8 ≤ spBytes s.sdp ∧ ((s.stack 15).queue 15).st = .idle ∧ (s.hart 0).live = true ∧
      (let recs := ((s.core 0).sfrq.filter (fun r => r.cid == (s.hart 0).cid)).take (fld (0x1000000000 : W) 32 7)
       fld (0x1000000000 : W) 0 32 % 32 = 0 ∧ recs.length = 1 ∧ fld (0x1000000000 : W) 0 32 + 32 * recs.length ≤ spBytes s.sdp) ∧
      ((s.port 0).up = true ∧ (s.port 0).down = true ∧ (s.port 0).dropping = [] ∧ (s.port 1).up = false) ∧
      (let y := (s.modPort 1 (fun p => { p with up := true, down := true, dropping := [3] })).port 1
       y.up = true ∧ y.down = true ∧ y.dropping ≠ []) ∧
      (let k : HQueue := { HQueue.reset with tails := [(1, 5)], tail := 1 }
       pendingAt k 0 = 0 ∧ pendingAt k 2 = 2 ∧ ¬2 ^ k.logn < pendingAt k 1 ∧ 2 ^ k.logn < pendingAt k 2 ∧
         k.tails.find? (fun e => decide (pendingAt k 1 ≤ pendingAt k e.1)) = some (1, 5)) := by decide +kernel

theorem wit_FabricEvents :
    (let s := withReq { rq0 with hops := 0, home := 1 }
     ∃ q, s.req? 7 = some q ∧ q.moving = true ∧ q.hops = 0 ∧ q.router ≠ q.home) ∧
    (let s := { withReq { rq0 with hops := 0, router := 0, acc := { rq0.acc with pa := 0x8000 } } with
       reqs := [(7, { rq0 with hops := 0 }), (9, { rq0 with stamp := 1 })] }
     ∃ q e, s.req? 7 = some q ∧ e ∈ s.reqs ∧ q.moving = true ∧ q.hops = 0 ∧ q.router = q.home ∧ e.2.moving = true ∧
       e.2.vc = q.vc ∧ e.2.ends = q.ends ∧ e.2.entry = q.entry ∧ e.2.stamp < q.stamp) ∧
    (let s := withReq rq0
     ∃ q n, s.req? 7 = some q ∧ q.moving = true ∧ 0 < q.hops ∧ q.hops < 13 ∧ q.came ≠ some (q.turns % 4) ∧
       neighbour q.router (q.turns % 4) = some n ∧ tget false s.linksDown (4 * q.router + q.turns % 4) = false ∧
       tget false s.linkOff ((4 * q.router + q.turns % 4) * 4 + q.vc) = false ∧
       bufferFlits s (4 * q.router + q.turns % 4) q.vc < 128) ∧
    (let s := withReq { rq0 with hops := 13 }
     ∃ q, s.req? 7 = some q ∧ q.moving = true ∧ 13 ≤ q.hops) ∧
    (let s := { withReq { rq0 with here := true } with served := [(rq0.tag, rq0.resp)] }
     ∃ q, s.req? 7 = some q ∧ q.phase = .out ∧ q.here = true ∧ s.served.find? (fun e => e.1 == q.tag) = some (q.tag, rq0.resp)) ∧
    (let s := withReq { rq0 with here := true }
     ∃ q, s.req? 7 = some q ∧ q.phase = .out ∧ q.here = true ∧ (∀ e ∈ s.served, e.1 ≠ q.tag) ∧
       homeHeld s 1031 q.acc (placeOf s.sdp q.acc.pa) q.n = false ∧
       homeHeld (s.modStack 0 (fun t => { t with veld := { t.veld with
         locks := [(1, { cid := 2, hart := 0, band := 0, subs := [0], start := 0 })] } })) 1031 q.acc (placeOf s.sdp q.acc.pa) q.n = true) ∧
    (let s := withReq { rq0 with here := true, phase := .back }
     ∃ q, s.req? 7 = some q ∧ q.live = true ∧ q.phase = .back ∧ q.here = true) ∧
    (let s := withReq { rq0 with phase := .unreachable, op := .write 0 }
     ∃ q, s.req? 7 = some q ∧ q.live = true ∧ q.phase = .unreachable ∧ q.op.isWrite = true ∧
       (unreachedResp s q).refused = [(0, 0x0A)]) ∧
    (let s := { withReq { rq0 with tries := 4 } with clock := 8000 }
     ∃ q, s.req? 7 = some q ∧ q.phase = .out ∧ q.sentAt + 8000 ≤ s.clock ∧ 4 ≤ q.tries) ∧
    ((neighbour (1 / 4) (1 % 4)).isSome = true ∧ bufferFlits base 1 0 ≤ 64 ∧ (withReq rq0).req? 7 = some rq0 ∧
      rq0.moving = true ∧ 4 * rq0.router + rq0.turns % 4 = 1) :=
  ⟨⟨_, rfl, by decide, rfl, by decide⟩, ⟨_, (9, { rq0 with stamp := 1 }), rfl, by decide, by decide, by decide, by decide +kernel,
      by decide, by decide, by decide +kernel, by decide, by decide⟩,
    ⟨_, _, rfl, by decide, by decide, by decide, by decide, rfl, by decide, by decide, by decide +kernel⟩,
    ⟨_, rfl, by decide, by decide⟩, ⟨_, rfl, rfl, rfl, by decide +kernel⟩,
    ⟨_, rfl, rfl, rfl, by decide +kernel, by decide +kernel, by decide +kernel⟩,
    ⟨_, rfl, rfl, rfl, rfl⟩, ⟨_, rfl, rfl, rfl, rfl, rfl⟩, ⟨_, rfl, rfl, by decide, by decide⟩, by decide +kernel⟩

/-- A refusal on its way; one recorded and undelivered, with a handler; an interrupt enabled and pending; each wait past its
time-out. -/
theorem wit_DeliveryEvents :
    (let x : Refused :=
       { home := 0, group := 4, hart := 0, live := true, va := 0x8000, pa := 0x8000, cid := 1, elem := 0, cause := 0x0A }
     let s : State := { base with refusals := [(3, x), (6, { x with elem := 1 })] }
     s.refusals.find? (fun e => e.1 == 3) = some (3, x) ∧ x.live = true ∧ refusedBefore s 3 x = false ∧
       s.refusals.find? (fun e => e.1 == 6) = some (6, { x with elem := 1 }) ∧ (3, x) ∈ s.refusals ∧ 3 < 6) ∧
    (let s := withHart (fun x => { x with pend := [{ cause := 0x0A, va := 0x8000, queued := true }] })
     atBoundary s 0 = true ∧ (s.hart 0).open_ = true ∧ (s.hart 0).pend ≠ [] ∧
       (s.hart 0).pend.find? (·.queued) = some { cause := 0x0A, va := 0x8000, queued := true } ∧ handlerOf s 0 0x0A ≠ 0) ∧
    (let s := withHart (fun x => { x with pend := [{ cause := 0x0B, va := 0x8000, queued := false }] })
     (s.hart 0).pend.find? (·.queued) = none ∧ (s.hart 0).pend.head?.map (·.cause) = some 0x0B ∧ handlerOf s 0 0x0B ≠ 0) ∧
    (let s := withHart (fun x => { x with hstat := 0x300 })
     atBoundary s 0 = true ∧ (s.hart 0).pend = [] ∧ (s.hart 0).open_ = true ∧ fld (s.hart 0).hstat 8 2 = 3 ∧
       handlerOf s 0 0x20 ≠ 0) ∧
    (let w (i : Instr) : WaitRec := { what := i, start := 0, met := [], expired := false, note := [] }
     let s (i : Instr) : State := { (base.modHart 0 (fun x => { x.wr 9 5 with ltmo := 5, wait := some (w i) })) with clock := 5 }
     let f : VWt := { k := 0, ge := false, sc := .dv, c := 9, b := 3, a := 2 }
     (let t := s (.vwait 1 f)
      (t.hart 0).wait = some (w (.vwait 1 f)) ∧ ((t.hart 0).rd f.c).toNat = 5 ∧ 0 + 5 ≤ t.clock) ∧
     (let t := s (.lldt 1 0 2 3)
      (t.hart 0).wait = some (w (.lldt 1 0 2 3)) ∧ fld (t.hart 0).ltmo 0 32 = 5 ∧ 0 + 5 ≤ t.clock) ∧
     (s (.colwaitSeq 1 2)).hart 0 = { (s (.colwaitSeq 1 2)).hart 0 with wait := some (w (.colwaitSeq 1 2)), ltmo := 5 }) := by
  decide +kernel

theorem mem_upto' {a n i : Nat} (h1 : a ≤ i) (h2 : i < a + n) : i ∈ upto a n := by
  induction n generalizing a with
  | zero => omega
  | succ n ih =>
    rcases Nat.eq_or_lt_of_le h1 with rfl | h
    · exact List.mem_cons_self
    · exact List.mem_cons_of_mem _ (ih h (by omega))
def clean0 (s : State) (cid a n : Nat) : Bool :=
  ((partsOf a n).all (fun p => !s.poisoned p && decide (tget 0 s.softErr p = 0) && s.stale.all (fun e => decide (e.1 / 2 ≠ p)))) &&
    ((linesOf a n).all (fun l => decide (tget 0 s.keyIds l = 0) && decide (tget 0 s.tags l < 8) && !rowLocked s cid (l * 128)))
theorem clean_of_0 {s : State} {cid a n w : Nat} (h : clean0 s cid a n = true) (hw : w < 2) : CleanDram s cid 0 a n w := by
  simp only [clean0, Bool.and_eq_true] at h
  exact clean_of_check h.1 h.2 hw
/-- A window of kind host over the first page above 4 TiB on port 0; a port in the first phase of a link down; a deferred EN;
a request behind the port; host memory held by a slice; the wipe. -/
theorem wit_PortEvents :
    (let s := base.modPort 0 (fun p => { p with down := true, dropping := [3] })
     (s.port 0).down = true ∧ 3 ∈ (s.port 0).dropping ∧ (s.port 0).up = false ∧ reachOn s 2 2 (portStack 0) 3 = .ok) ∧
    (let s := base.modPort 0 (fun p => { p with down := true, up := true, enPending := true, dropping := [3] })
     (s.port 0).up = true ∧ (s.port 0).enPending = true ∧ ∀ k ∈ (s.port 0).dropping, k = 3) ∧
    (let s := base.modPort 0 (fun p => { p with enPending := true })
     (s.port 0).up = false ∧ (s.port 0).dropping = [] ∧ (s.port 0).enPending = true) ∧
    (placeOf base.sdp 0x8000 = .dram 0x8000 false ∧ CleanDram base 0 0 0x8000 64 (b01 false) ∧ hostWaits base 0x8000 = false ∧
      computing base 0x8000 = none ∧ withheld base.sdp 0x8000 = false ∧ base.life = .ready) ∧
    (placeOf base.sdp 0x01FF00000000 = .hole) ∧
    (let s := base.modPort 0 (fun p => { p with en := true, up := true, wins :=
      [(0, { valid := true, base := 0x40000000, limit := 0x40000000, r := true, w := true, kind := .host })] })
     extHost s 0x040000000000 = true ∧ s.life = .ready ∧ placeOf s.sdp 0x040000000000 = .ext 0x040000000000 ∧
       servingPort s 0x040000000000 = some 0 ∧ s.hostLines = [] ∧
       ({ s with hostLines := [(0x040000000000 / 128 * 16, 1)] } : State).hostLines.any
         (fun e => e.1 / 16 == 0x040000000000 / 128) = true) :=
  ⟨by decide +kernel, by decide +kernel, by decide +kernel,
    ⟨by decide +kernel, clean_of_0 (by decide +kernel) (by decide), by decide +kernel, by decide +kernel, by decide +kernel, rfl⟩,
    by decide +kernel, by decide +kernel⟩

def node0 : Node :=
  { kind := .band, st := .ready, graph := 5, ix := 0, stack := 0, prio := 2, cid := 1, stamp := [0, 0, 0, 0, 0], readyAt := 0,
    waited := 0, pc := 0x4002, harts := [2], reqs := [[4, 8]], pay := 0, vl := 0, sewc := 0, label := 0, cursor := none,
    band := none, fword := 0, fva := 0 }
def graph0 : Graph :=
  { stack := 0, queue := 0, seq := 1, cid := 1, compl := 0x8000, nodes := [6], edges := [], cend := false, exit := none,
    complete := false, flush := some [] }
/-- The base part with a graph of one node. -/
def graphSt (n : Node) (g : Graph) : State := { vm 2 with nodes := [(6, n)], graphs := [(5, g)] }
/-- A queue with one record in its ring, all zero, and one that holds a record of one band node. -/
def ringSt (s : State) : State :=
  s.modStack 0 (fun t => t.modQueue 0 (fun q => { q with qbase := 0x8000, cid := 1, st := .active, tail := 1 }))
def band0 : Band :=
  { node := 6, stack := 0, cid := 1, phase := .running, crews := [[0]], killed := [], markers := [], slots := [], reserved := 0,
    reclaimAt := none, incoming := none, preemptAt := 0, drained := [] }
/-- A decidable form of a resolved range in plain DRAM under key 0. -/
def dramCheck (s : State) (r : Rq) (va : W) (n a : Nat) : Bool :=
  match resolve s r .engine .write va n with
  | (.ok (acc, .dram b _), _) => decide (b = a) && !acc.ub && decide (acc.lt = 0) && decide (acc.key = 0)
  | _ => false
theorem dram_of_check {s : State} {r : Rq} {va : W} {n a : Nat} (h : dramCheck s r va n a = true) :
    ∃ acc w e, resolve s r .engine .write va n = (.ok (acc, .dram a w), e) ∧ acc.ub = false ∧ acc.lt = 0 ∧ acc.key = 0 := by
  unfold dramCheck at h
  split at h
  · rename_i acc b w e h1
    simp only [Bool.and_eq_true, Bool.not_eq_true', decide_eq_true_eq] at h
    obtain ⟨⟨⟨rfl, h2⟩, h3⟩, h4⟩ := h
    exact ⟨acc, w, e, h1, h2, h3, h4⟩
  · cases h
/-- The record of a ring slot at 0x8000, taken granule by granule, and its granules. -/
def slotOf (s : State) : Nat := (upto 0 16).foldr (fun i x => s.natAt (0x8000 + 256 * i) 256 + 2 ^ 2048 * x) 0
def SlotPlain (s : State) (cid : Nat) : Prop :=
  ∀ i, i < 16 → ∃ w, placeOf s.sdp (0x8000 + 256 * i) = .dram (0x8000 + 256 * i) w ∧ withheld s.sdp (0x8000 + 256 * i) = false ∧
    reach s 0 (linStack (0x8000 + 256 * i)) = .ok ∧ CleanDram s cid 0 (0x8000 + 256 * i) 256 (b01 w)
theorem slot_of_check {s : State} {cid : Nat} (h : (upto 0 16).all (fun i =>
      decide (placeOf s.sdp (0x8000 + 256 * i) = .dram (0x8000 + 256 * i) false) && !withheld s.sdp (0x8000 + 256 * i) &&
        decide (reach s 0 (linStack (0x8000 + 256 * i)) = .ok) && clean0 s cid (0x8000 + 256 * i) 256) = true) :
    SlotPlain s cid := by
  intro i hi
  have := List.all_eq_true.1 h i (mem_upto' (Nat.zero_le _) (by omega))
  simp only [Bool.and_eq_true, Bool.not_eq_true', decide_eq_true_eq] at this
  exact ⟨false, this.1.1.1, this.1.1.2, this.1.2, clean_of_0 this.2 (by decide)⟩
theorem wit_SchedulerEvents :
    (let s := ringSt (vm 2)
     let k := (s.stack 0).queue 0
     s.life = .ready ∧ k.st = .active ∧ k.tail ≠ k.head ∧ (s.ctx k.cid).installed = true ∧ liveGraphs s 0 0 < 256 ∧
       k.qbase.toNat + k.head % 2 ^ k.logn * 4096 = 0x8000 ∧ SlotPlain s k.cid ∧ recordOk (slotOf s) = false) ∧
    (recordOk (slotOf (ringSt oneNode)) = true ∧ placeWaits (ringSt oneNode) 1 0 (slotOf (ringSt oneNode)) = false ∧
      SlotPlain (ringSt oneNode) 1) ∧
    (let s := graphSt node0 graph0
     s.life = .ready ∧ readyPool s 0 = [(6, node0)] ∧ s.node? 6 = some node0 ∧ s.graph? 5 = some graph0 ∧ bandFits s 6 node0 = true ∧
       s.arriving = [] ∧ olderFirst s 6 = false ∧ vptLocked s node0.cid = false ∧ (∀ e ∈ s.bands, e.2.stack = 0 → e.2.incoming = none) ∧
       s.winParts = []) ∧
    (let s : State := { graphSt node0 graph0 with clock := 2000000 }
     s.node? 6 = some node0 ∧ 2 ≤ node0.prio ∧ node0.readyAt + 2000000 ≤ s.clock) ∧
    (let s := graphSt { node0 with st := .done } graph0
     let rq : Rq := { cid := 1, stack := 0, lvl := .n, who := 640 }
     s.graph? 5 = some graph0 ∧ graphReady s graph0 = true ∧ flushed s [] = true ∧ graph0.compl ≠ 0 ∧ graph0.compl.toNat % 32 = 0 ∧
       (∃ acc w e, resolve s rq .engine .write 0x8000 32 = (.ok (acc, .dram 0x8000 w), e) ∧ acc.ub = false ∧ acc.lt = 0 ∧ acc.key = 0) ∧
       CleanDram s 1 0 0x8000 32 0 ∧ graphReady (graphSt { node0 with st := .failed } { graph0 with compl := 0 })
         { graph0 with compl := 0 } = true) ∧
    (let s : State := { base with clock := 100000000 }
     s.band? 0 = some { band0 with node := 0 } ∧ (s.ctx 1).installed = true ∧ (s.stack 0).halted = false ∧
       (pcField (s.ctx 1).exitv ≠ 0 ∧ ∀ h ∈ s.ctxHarts 1, (s.stack (h / 32)).halted = false) ∧
       (∀ h ∈ bandLive s 0 { band0 with node := 0 },
         (s.hart h).retiredAt + (if (s.ctx 1).wdog = 0 then 100000 else (s.ctx 1).wdog) * 1000 ≤ s.clock)) ∧
    (let s : State := { base with mbstat := 1, mbcmd := 2, mbarg := [(0, 1)] }
     s.life = .ready ∧ s.mbstat = 1 ∧ s.mbcmd = 0x02 ∧ s.arg 0 = 1 ∧ (s.ctx 1).installed = true ∧ pcField (s.ctx 1).exitv ≠ 0 ∧
       ∀ h ∈ s.ctxHarts 1, (s.stack (h / 32)).halted = false) ∧
    (let s : State := ((({ base with clock := 100000000 } : State).modHart 32 (fun x => { x with live := true, cid := 1, band := 9 })
       ).modStack 1 (fun t => { t with halted := true }))
     s.band? 0 = some { band0 with node := 0 } ∧ (s.ctx 1).installed = true ∧ (s.ctx 1).removing = none ∧
       (s.stack 0).halted = false ∧ 32 ∈ s.ctxHarts 1 ∧ (s.stack (32 / 32)).halted = true ∧
       (∀ h ∈ bandLive s 0 { band0 with node := 0 },
         (s.hart h).retiredAt + (if (s.ctx 1).wdog = 0 then 100000 else (s.ctx 1).wdog) * 1000 ≤ s.clock)) := by
  refine ⟨⟨by decide +kernel, by decide +kernel, by decide +kernel, by decide +kernel, by decide +kernel, by decide +kernel,
      slot_of_check (by decide +kernel), by decide +kernel⟩,
    ⟨by decide +kernel, by decide +kernel, slot_of_check (by decide +kernel)⟩, by decide +kernel, by decide +kernel,
    ⟨by decide +kernel, by decide +kernel, by decide +kernel, by decide +kernel, by decide +kernel, dram_of_check (by decide +kernel),
      clean_of_0 (by decide +kernel) (by decide), by decide +kernel⟩, by decide +kernel, by decide +kernel, by decide +kernel⟩

def bandSt (b : Band) (f : Hart → Hart) : State := { (vm 2).modHart 0 f with bands := [(0, b)], nodes := [(6, node0)] }
theorem wit_PreemptionEvents :
    (let b := { band0 with reclaimAt := some 0 }
     let s := { bandSt b (fun x => { x with rcl := true }) with clock := 2000 }
     s.band? 0 = some b ∧ 0 + 2000 ≤ s.clock ∧ reclaimDone s b 0 = false ∧ (s.stack b.stack).halted = false ∧
       (s.ctx b.cid).installed = true ∧ (s.ctx b.cid).removing = none) ∧
    (let b := { band0 with phase := .stopping, markers := [markerOf 0] }
     let s := { bandSt b (fun x => { x with vq := [entryOf x .nop] }) with clock := 1000 }
     s.band? 0 = some b ∧ (s.hart 0).band = 0 ∧ markerOf 0 ∈ b.markers ∧ (s.hart 0).live = true ∧ (s.hart 0).vq ≠ [] ∧
       (s.hart 0).level ≠ .m ∧ 0 ∉ b.drained ∧ b.preemptAt + 1000 ≤ s.clock ∧ s.cutAt = none) ∧
    (let b := { band0 with phase := .stopping, markers := [markerOf 0] }
     let s := bandSt b id
     s.band? 0 = some b ∧ markerDue s b (markerOf 0) = true ∧ (s.stack b.stack).halted = false ∧ s.winParts = [] ∧
       b.crews.length ≤ (pickSlots s b.stack 14).length) ∧
    (let b := { band0 with phase := .saving, slots := [3] }
     let s := bandSt b id
     s.band? 0 = some b ∧ s.node? b.node = some node0 ∧ b.slots.Nodup ∧ b.slots.length = b.crews.length ∧
       b.incoming = none ∧ s.winParts = []) ∧
    (let b := { band0 with phase := .restoring, slots := [3] }
     let s := bandSt b id
     s.band? 0 = some b ∧ bandLive s 0 b = [0] ∧ (s.hart 0).open_ = true) := by decide +kernel

def vop0 : VOp :=
  { kind := .clone, cid := 1, core := 0, num := 1, node := none, subs := [], rows := [(0x400, 0x800)], va := 0, lmask := 1, iter := 1,
    mcoff := 0, rstep := 0, dv := false }
def vrun0 (o : VOp) : VRun :=
  { q := 0, op := o, prog := [], clear := 8, iter := 0, ix := 0, loopAt := none, rep := 0, count := 0, sent := false, wmask := [],
    refresh := [], refreshed := [], gaps := [], served := [], asks := [], kinds := [], rowIx := 0, start := 0, last := 0 }
/-- The sequencer of stack 0 with a running operation, and with one queued. -/
def runSt (r : VRun) (f : Stack → Stack) : State := base.modStack 0 (fun t => f { t with veld := { t.veld with run := some r } })
def queueSt (o : VOp) : State :=
  base.modStack 0 (fun t => { t with veld := { t.veld with qs := [(0, { VQueue.reset with ops := [o] })] } })
def launch0 : VOp := { vop0 with kind := .launch, subs := [0], rows := [], mcoff := 0xFFFF }
theorem plain_of_nil {s : State} (a : Nat) (h : s.softErr = [] ∧ s.poison = [] ∧ s.keyIds = [] ∧ s.tags = []) :
    PlainRow s a := by
  obtain ⟨h1, h2, h3, h4⟩ := h
  constructor <;> intro p _
  · exact ⟨by rw [h1]; rfl, by unfold State.poisoned; rw [h2]; rfl⟩
  · exact ⟨by rw [h3]; rfl, by rw [h4]; rfl⟩
/-- No bank of a layer has executed a step, so none owes a refresh. -/
theorem no_refresh {s : State} {st : Nat} (r : VRun) (h1 : (s.stack st).veld.run = some r)
    (h2 : ∀ l, l < 16 → stepsOf (s.stack st) r l = 0) : NoRefresh s st := by
  intro l b q n h
  simp only [gapAt, h1] at h
  split at h
  · exfalso
    rename_i hc
    have := h2 l hc.2.1
    omega
  · cases h
/-- An operation starts, or fails validation; the broadcast clears; a row goes through the base die; a step moves a row. -/
theorem wit_VeldEvents :
    (let s := queueSt vop0
     stackRuns s 0 = true ∧ (s.stack 0).veld.run = none ∧ nextQueue (s.stack 0).veld = some (0, vop0) ∧ vop0.isLaunch = false) ∧
    (let s := queueSt launch0
     nextQueue (s.stack 0).veld = some (0, launch0) ∧ launch0.isLaunch = true ∧ launch0.node = none ∧
       (match validate s 0 launch0 with
        | .ok _ => false
        | .error _ => true) = true) ∧
    (let r := vrun0 launch0
     let s := runSt r (fun t => { t with colalloc := 0x30 })
     (s.stack 0).veld.run = some r ∧ stackRuns s 0 = true ∧ allCurrent (s.stack 0) r.op.lmask = true ∧
       fld (s.stack 0).colalloc 0 7 ≠ 0 ∧ r.op.isLaunch = true ∧ r.clear = 8 ∧ r.sent = false ∧
       ∀ l, l < 16 → ((s.stack 0).layer l).fifo = []) ∧
    (let r := vrun0 { vop0 with rows := [(0x400, 0x800 + 2 ^ 16)] }
     let s := runSt r id
     r.op.rows[r.rowIx]? = some (0x400, 0x800 + 2 ^ 16) ∧ rowPath r.op (0x400, 0x800 + 2 ^ 16) = 0 ∧ r.count = r.rowIx ∧
       (0x800 + 2 ^ 16) % 1024 < 1008 ∧ heldOut s r = false ∧ allCurrent (s.stack 0) r.op.lmask = true ∧ NoRefresh s 0 ∧
       PlainRow s ((0x800 + 2 ^ 16) * 1024)) ∧
    (let r := vrun0 launch0
     let w : MoveW := { kind := 1, dst := 1007, src := 0, mod := 0, ix := 0 }
     let s := runSt r (fun t => t.modLayer 0 (fun l => { l with fifo := [w] }))
     (s.stack 0).veld.run = some r ∧ stackRuns s 0 = true ∧ heldOut s r = false ∧ ((s.stack 0).layer 0).fifo.head? = some w ∧
       r.op.inLayer 0 = [0] ∧ tget (2 ^ 8192 - 1) r.wmask 0 = 2 ^ 8192 - 1 ∧ NoRefresh s 0 ∧ PlainRow s 0) ∧
    (let r := { vrun0 launch0 with sent := true }
     let s : State := { runSt r id with clock := 10000000 }
     (s.stack 0).veld.run = some r ∧ runOver (s.stack 0) r = true ∧ allCurrent (s.stack 0) r.op.lmask = true ∧
       r.op.node = none ∧ r.start + 10000000 ≤ s.clock ∧ stackRuns s 0 = true ∧ heldOut (runSt r id) r = false) ∧
    (let l : VLock := { cid := 1, hart := 0, band := 0, subs := [5], start := 0 }
     let s : State := { base.modStack 0 (fun t => { t with veld := { t.veld with locks := [(1, l)] } }) with clock := 10000000 }
     (s.stack 0).veld.locks.find? (fun e => e.1 == 1) = some (1, l) ∧ l.start + 10000000 ≤ s.clock ∧
       (s.hart l.hart).live = true ∧ (s.hart l.hart).band = l.band) := by
  refine ⟨by decide +kernel, by decide +kernel, by decide +kernel,
    ⟨by decide +kernel, by decide +kernel, by decide +kernel, by decide, by decide +kernel, by decide +kernel,
      no_refresh (vrun0 { vop0 with rows := [(0x400, 0x800 + 2 ^ 16)] }) (by decide +kernel) (by decide +kernel), plain_of_nil _ ⟨rfl, rfl, rfl, rfl⟩⟩,
    ⟨by decide +kernel, by decide +kernel, by decide +kernel, by decide +kernel, by decide +kernel, by decide +kernel,
      no_refresh (vrun0 launch0) (by decide +kernel) (by decide +kernel), plain_of_nil _ ⟨rfl, rfl, rfl, rfl⟩⟩,
    by decide +kernel, by decide +kernel⟩
theorem cell_of_nil {s : State} (a : Nat) (h : s.softErr = [] ∧ s.poison = [] ∧ s.keyIds = [] ∧ s.tags = []) : CellRow s a := by
  obtain ⟨h1, h2, h3, h4⟩ := h
  constructor <;> intro p _
  · exact ⟨by rw [h1]; rfl, by unfold State.isLost State.poisoned; rw [h2]; rfl⟩
  · exact ⟨by rw [h3]; rfl, by rw [h4]; rfl⟩
/-- A launch on subarray 0 of layers 0 and 1 under a write mask, with words at the heads of the layers. -/
def stepRun : VRun := { vrun0 { launch0 with subs := [0, 4096], lmask := 7 } with wmask := [(0, 1)] }
def stepSt (l : List (Nat × MoveW)) : State :=
  runSt stepRun (fun t => l.foldl (fun t e => t.modLayer e.1 (fun x => { x with fifo := [e.2] })) t)
def wordOfKind (k d a m : Nat) : MoveW := { kind := k, dst := d, src := a, mod := m, ix := 3 }
theorem step_ready (w : MoveW) (u : Nat) (l : List (Nat × MoveW))
    (h : (stepSt l).softErr = [] ∧ (stepSt l).poison = [] ∧ (stepSt l).keyIds = [] ∧ (stepSt l).tags = []) :
    RowsReady (stepSt l) stepRun w u :=
  ⟨fun _ _ _ => cell_of_nil _ h, fun _ _ _ => cell_of_nil _ h, .inr (cell_of_nil _ h)⟩
/-- MAJ, a shift into a complement port, XLY from layer 0 to layer 1 and its word in layer 2, SETM and END; the words of a
program with a LOOP, an MV and an END. -/
theorem wit_VeldEvents_steps :
    (∀ w ∈ [wordOfKind 1 5 1017 0, wordOfKind 2 1009 0 0, wordOfKind 3 1013 7 1, wordOfKind 4 1020 1015 0],
      let s := stepSt [(0, w)]
      (s.stack 0).veld.run = some stepRun ∧ stackRuns s 0 = true ∧ heldOut s stepRun = false ∧ stepRun.op.isLaunch = true ∧
        ((s.stack 0).layer 0).fifo.head? = some w ∧ NoRefresh s 0 ∧ stepRun.op.subs.Nodup ∧ w.dst < 1021 ∧ w.dst ≠ 1016 ∧ w.dst ≠ 1017 ∧
        w.src < 1021 ∧ stepRun.op.inLayer 0 = [0] ∧ RowsReady s stepRun w 0) ∧
    (let w := wordOfKind 7 5 6 1
     let s := stepSt [(0, w), (1, w), (2, w)]
     (w.mod < 256 ∧ w.mod / 16 = 0 ∧ w.mod % 16 = 1 ∧ ((s.stack 0).layer 0).fifo.head? = some w ∧ ((s.stack 0).layer 1).fifo.head? = some w ∧
       ((s.stack 0).layer 2).fifo.head? = some w ∧ stepRun.op.inLayer 1 = [4096]) ∧ NoRefresh s 0 ∧ RowsReady s stepRun w 4096) ∧
    (∀ w ∈ [wordOfKind 5 0 0 0, wordOfKind 6 0 0 0, wordOfKind 8 0 0 0, wordOfKind 9 0 0 0, wordOfKind 15 0 0 0],
      let s := stepSt [(0, w)]
      ((s.stack 0).layer 0).fifo.head? = some w ∧ NoRefresh s 0 ∧ ∀ u ∈ stepRun.op.inLayer 0, CellRow s (cellsOf u 1018)) ∧
    (let r := { vrun0 launch0 with clear := 0, prog := [0x80000101#32, 0x10140700#32, 0xF0000000#32] }
     let s := runSt r (fun t => { t with colalloc := 0x30 })
     (s.stack 0).veld.run = some r ∧ stackRuns s 0 = true ∧ allCurrent (s.stack 0) r.op.lmask = true ∧
       fld (s.stack 0).colalloc 0 7 ≠ 0 ∧ r.op.isLaunch = true ∧ r.clear = 0) := by
  have nr (l : List (Nat × MoveW)) (h : ((stepSt l).stack 0).veld.run = some stepRun)
      (g : ∀ y, y < 16 → stepsOf ((stepSt l).stack 0) stepRun y = 0) : NoRefresh (stepSt l) 0 := no_refresh stepRun h g
  refine ⟨?_, ⟨by decide +kernel, nr _ (by decide +kernel) (by decide +kernel), step_ready _ _ _ ⟨rfl, rfl, rfl, rfl⟩⟩, ?_, by decide +kernel⟩
  · intro w hw
    simp only [List.mem_cons, List.not_mem_nil, or_false] at hw
    rcases hw with rfl | rfl | rfl | rfl <;>
      exact ⟨by decide +kernel, by decide +kernel, by decide +kernel, by decide, by decide +kernel, nr _ (by decide +kernel) (by decide +kernel),
        by decide, by decide, by decide, by decide, by decide, by decide, step_ready _ _ _ ⟨rfl, rfl, rfl, rfl⟩⟩
  · intro w hw
    simp only [List.mem_cons, List.not_mem_nil, or_false] at hw
    rcases hw with rfl | rfl | rfl | rfl | rfl <;>
      exact ⟨by decide +kernel, nr _ (by decide +kernel) (by decide +kernel), fun _ _ => cell_of_nil _ ⟨rfl, rfl, rfl, rfl⟩⟩
/-- A launch after `n` steps of layer 0, at a time. -/
def gapSt (r : VRun) (n time : Nat) (bal : Bool) : State :=
  { runSt r (fun t => { t.modLayer 0 (fun l => { l with steps := n }) with
      veld := { t.veld with run := some r, balanced := bal } }) with time := time }
/-- A launch that starts at 1 ns. -/
def laterRun (p : List (BitVec 32)) : VRun := { vrun0 launch0 with start := 1, prog := p }
theorem later_due (p : List (BitVec 32)) : 0 < dueAt (laterRun p) 0 0 ∧ 0 < dueAt (laterRun p) 0 1 := by
  have h : 0 < dueAt (laterRun p) 0 0 := Nat.lt_of_lt_of_le Nat.one_pos (Nat.le_add_right 1 _)
  exact ⟨h, Nat.lt_of_lt_of_le h (Nat.le_add_right _ _)⟩
/-- A host access that waits for a gap of bank 0 since `n` steps. -/
def ask0 (n : Nat) (got : Bool) : GapAsk := { bank := 0, since := n, who := 640, row := 0x100000 / 1024, got := got }
/-- The first refresh of a bank due, and not yet due, whatever its interval is; one that waits for an RPT; a gap that has
served an access, and one that serves the older of two; an access that its gap serves, and one that waits unless the slices
hold its line. -/
theorem wit_VeldEvents_gaps :
    (let r := vrun0 launch0
     let s := gapSt r 1 (dueAt r 0 0) true
     gapAt s 0 0 0 = some (r, 1) ∧ tget 0 r.refreshed 0 ≠ 1 ∧ dueAt r 0 (tget 0 r.refresh 0) ≤ s.time ∧ r.prog = [] ∧
       tget 0 r.served 0 ≠ 1 ∧ (s.stack 0).veld.balanced = true) ∧
    (let r := laterRun []
     let s := gapSt r 1 0 true
     gapAt s 0 0 0 = some (r, 1) ∧ s.time < dueAt r 0 (tget 0 r.refresh 0)) ∧
    (let r := laterRun [0x90000000#32]
     let s := gapSt r 1 0 true
     gapAt s 0 0 0 = some (r, 1) ∧ (∃ w ∈ r.prog, mvKind w = 9) ∧ tget 0 r.kinds 0 ≠ 9 ∧
       s.time < dueAt r 0 (tget 0 r.refresh 0 + 1)) ∧
    (let r := { vrun0 launch0 with served := [(0, 63)] }
     let s := gapSt r 63 0 false
     gapAt s 0 0 0 = some (r, 63) ∧ tget 0 r.served 0 = 63) ∧
    (let r := { vrun0 launch0 with asks := [ask0 0 false, ask0 1 false] }
     let w : MoveW := { kind := 1, dst := 1007, src := 0, mod := 0, ix := 0 }
     let s := (gapSt r 64 0 false).modStack 0 (fun t => t.modLayer 0 (fun l => { l with fifo := [w] }))
     gapAt s 0 0 0 = some (r, 64) ∧ tget 0 r.served 0 ≠ 64 ∧ (s.stack 0).veld.balanced = false ∧ tget 0 r.kinds 0 = 0 ∧
       (ask0 0 false).since + 64 ≤ 64 ∧ 64 < (ask0 1 false).since + 64 ∧ ((s.stack 0).layer 0).fifo.head? = some w) ∧
    (let r := { vrun0 launch0 with asks := [ask0 1 true] }
     let s := gapSt r 5 0 false
     s.life = .ready ∧ placeOf s.sdp 0x100000 = .dram 0x100000 false ∧ linStack 0x100000 = 0 ∧
       computing s 0x100000 = some (r, 0, 5) ∧ hostWaits s 0x100000 = false) ∧
    (let r := vrun0 launch0
     let s := gapSt r 5 0 false
     computing s 0x100000 = some (r, 0, 5) ∧
       (Config.sliceHit s.ticks (0x100000 / 128) = false → gapShut s 640 0x100000 = true)) := by
  refine ⟨⟨by decide +kernel, by decide +kernel, Nat.le_refl _, rfl, by decide +kernel, rfl⟩, ⟨by decide +kernel, (later_due []).1⟩,
    ⟨by decide +kernel, ⟨_, List.mem_cons_self, by decide +kernel⟩, by decide +kernel, (later_due [0x90000000#32]).2⟩,
    by decide +kernel, by decide +kernel, by decide +kernel,
    by decide +kernel, fun h => ?_⟩
  have e : computing (gapSt (vrun0 launch0) 5 0 false) 0x100000 = some (vrun0 launch0, 0, 5) := by decide +kernel
  have g : (vrun0 launch0).asks = [] := rfl
  simp [gapShut, e, h, g]

/-- A decidable form of `EngineBytes` at their own addresses. -/
def engineCheck (s : State) (r : Rq) (k : AKind) (va : W) (n : Nat) : Bool :=
  decide (va.toNat + n < 2 ^ 63) &&
    (upto 0 n).all (fun o => (upto 1 n).all (fun m => plainCheck s r .copy k (va + wd o) m (flat (va + wd o))))
theorem engine_of_check {s : State} {r : Rq} {k : AKind} {va : W} {n : Nat} (h : engineCheck s r k va n = true) :
    EngineBytes s r k va n flat := by
  simp only [engineCheck, Bool.and_eq_true, decide_eq_true_eq, List.all_eq_true] at h
  intro o m h1 h2 _
  refine ⟨plain_of_check (h.2 o (mem_upto' (by omega) (by omega)) m (mem_upto' (by omega) (by omega))), fun i hi => ?_⟩
  simp only [flat, wd]
  bv_omega
def copy0 : CopyCtx :=
  { x := false, opno := 1, cid := 1, core := 0, hart := 0, seq := false, band := 0, node := none, pc := 0x4002, sew := 16, vl := 1,
    bar := none, desc := 0, body := 0x8000 + 0x9000 * 2 ^ 64 + 2 ^ 192 * (2 ^ 160 + 2 ^ 192 + 2 ^ 224), i1 := 0, i2 := 0, i3 := 0, boff := 0,
    gran := 0, haddr := 0x8000, paddr := 0x9000, wm1 := 0, dir := false, sx := false, took := 0, fault := none }
def copySt (x : CopyCtx) : State := (vm 2).modCore 0 (fun c => { c with copies := [x] })
def planeCheck (s : State) (r : Rq) (k : AKind) (va : W) (a : Nat) : Bool :=
  match (resolve s r .copy k va 64).1 with
  | .ok (acc, .dram b w) => decide (b = a) && !w && !acc.cmp && decide (acc.lt = 0) && !acc.ub && decide (acc.key = 0)
  | _ => false
theorem plane_of_check {s : State} {r : Rq} {k : AKind} {va : W} {a : Nat} (h : planeCheck s r k va a = true) :
    ∃ acc, (resolve s r .copy k va 64).1 = .ok (acc, .dram a false) ∧ acc.cmp = false ∧ acc.lt = 0 ∧ acc.ub = false ∧
      acc.key = 0 := by
  unfold planeCheck at h
  split at h
  · rename_i acc b w e
    simp only [Bool.and_eq_true, Bool.not_eq_true', decide_eq_true_eq] at h
    obtain ⟨⟨⟨⟨⟨rfl, rfl⟩, h1⟩, h2⟩, h3⟩, h4⟩ := h
    exact ⟨acc, e, h1, h2, h3, h4⟩
  · cases h
def copyx0 (d : Bool) : CopyCtx := { copy0 with x := true, dir := d }
theorem planes (d : Bool) : PlaneRows (copySt (copyx0 d)) 0 (copyx0 d) 0x9000 := by
  refine ⟨by decide, by decide, by decide, by cases d <;> decide, fun b hb => ?_⟩
  obtain rfl : b = 0 := Nat.le_zero.1 (by cases d <;> exact hb)
  refine ⟨by cases d <;> decide +kernel, by cases d <;> decide +kernel, by cases d <;> decide +kernel, ?_, ?_⟩
  · cases d <;> exact plane_of_check (by decide +kernel)
  · cases d <;> exact clean_of_0 (by decide +kernel) (by decide)
theorem wit_EngineEvents :
    (let s := copySt copy0
     CopyAt s 0 copy0 [] ∧ copy0.x = false ∧ descOk copy0.body = true ∧ copy0.isOver = false ∧
       granOf copy0.norm = (0x8000, 0x9000, 2) ∧ EngineBytes s (copyRq 0 copy0) .read 0x8000 2 flat ∧
       EngineBytes s (copyRq 0 copy0) .write 0x9000 2 flat) ∧
    (∀ d, let x := copyx0 d
     let s := copySt x
     CopyAt s 0 x [] ∧ x.x = true ∧ x.isOver = false ∧ TilePlaced x ∧ PlaneRows s 0 x 0x9000 ∧ (tileHoriz x) = (0x8000, 1) ∧
       EngineBytes s (copyRq 0 x) (if d then .write else .read) 0x8000 2 flat) ∧
    (let st : Stream := { base := 0x8000, len := 1, stride := none, fmt := 0, sew := 2, lm := 0, mfc := 0, cursor := 0, fetched := [] }
     let s := vecSt 2 4 (fun x => { x with streams := [(24, st)] })
     (s.hart 0).streams.find? (fun e => e.1 == 24) = some (24, st) ∧ hartRuns s 0 = true ∧ sptWaits s 0 = false ∧
       min ((s.hart 0).cur * 512 * 2 ^ st.lm / 2 ^ st.sew) (st.len - st.cursor) = 1 ∧
       (st.unit 0).1.toNat % (if fmtWhole st.fmt then (st.unit 0).2 else 1) = 0 ∧
       PlainRange { s with agent := .queue 0 } (rqOf s 0) .read (st.unit 0).1 (st.unit 0).2 flat) := by
  refine ⟨⟨⟨by decide +kernel, by decide, by decide, by decide +kernel, by decide +kernel⟩, by decide, by decide +kernel, by decide +kernel, by decide +kernel,
      engine_of_check (by decide +kernel), engine_of_check (by decide +kernel)⟩, fun d => ?_,
    ⟨by decide +kernel, by decide +kernel, by decide +kernel, by decide +kernel, by decide +kernel, range_of_check (by decide +kernel)⟩⟩
  refine ⟨⟨by cases d <;> decide +kernel, rfl, rfl, by cases d <;> decide +kernel, by cases d <;> decide +kernel⟩, rfl, by cases d <;> decide,
    ⟨by cases d <;> decide, by cases d <;> decide, .inr rfl, by cases d <;> decide, by cases d <;> decide⟩, planes d,
    by cases d <;> decide +kernel, ?_⟩
  cases d <;> exact engine_of_check (by decide +kernel)

/-- A lattice line of stack 0 with a TTL, also at a round that brings a new MODE; one on its way to stack 1; a Col entry; layers
asleep, behind by 1 and by 5,000. -/
theorem wit_ExchangeAndColEvents :
    (let s : State := { base with ttl := [(256, 15, 1, 1)], time := 1000, round := 1 }
     s.xlines = [] ∧ s.roundTime + (s.round - s.roundBase) * periodOf s.xschedNow ≤ s.time ∧ s.xsched = s.xschedNow ∧
       (s.ttl.map (·.1)).Nodup) ∧
    (let s : State := { base with ttl := [(256, 15, 1, 1)], time := 1000, round := 1, xsched := base.xschedNow ^^^ 1 }
     s.xlines = [] ∧ s.roundTime + (s.round - s.roundBase) * periodOf s.xschedNow ≤ s.time ∧ s.xsched ≠ s.xschedNow ∧
       (s.ttl.map (·.1)).Nodup ∧ ∀ e ∈ s.ttl, 0 < e.2.1) ∧
    (let x : XLine := { line := 2 ^ 29 + 256, data := 7, bad := [], opens := [], unread := [3, 31], unjoined := lineCells 1, entry := 0,
                        stamp := 0, src := 256, ttl := 15, lt := 1, cid := 1 }
     let s : State := { base with xlines := [(3, x)], round := 1, ttl := [(256, 15, 1, 1)], xsent := [256] }
     s.xlines.find? (fun e => e.1 == 3) = some (3, x) ∧ x.unread ≠ [] ∧ (∀ k ∈ x.unread, k < 128 / cellBytes x.lt) ∧ s.softErr = [] ∧
       s.xlines ≠ [] ∧ s.round ≠ 0 ∧ ∀ e ∈ s.ttl, e.1 ∈ s.xsent) ∧
    (let x : XLine := { line := 2 ^ 29 + 256, data := 7, bad := [], opens := [], unread := [], unjoined := [31],
                        entry := (routeReset 0 1).toNat, stamp := 0, src := 256, ttl := 15, lt := 1, cid := 1 }
     let s : State := { base with xlines := [(3, x)] }
     s.xlines.find? (fun e => e.1 == 3) = some (3, x) ∧ x.way s = .arrived (x.line * 128 / 2 ^ 36) ∧ s.softErr = [] ∧ s.lost = [] ∧
       (∀ k ∈ x.unjoined, k < 128 / cellBytes x.lt) ∧ lineBehind s x = false ∧
       x.way { s with linksDown := (upto 0 64).map (fun l => (l, true)) } = .lost) ∧
    (let e : ColEntry := { chunk := 2, data := 5, mask := 1, hart := 0 }
     let s := base.modStack 0 (fun t => { t with colQ := [e] })
     (s.stack 0).colQ = [e] ∧ fld (s.stack 0).colalloc 0 7 < 64 ∧ (s.stack 0).behind = [] ∧
       ((s.stack 0).layer 3).st = .current) ∧
    (let e : ColEntry := { chunk := 2, data := 5, mask := 1, hart := 0 }
     let s := base.modStack 0 (fun t => ({ t with colseq := 1, colLog := [e] }.eachLayer (fun l => { l with horizon := 1 })).modLayer 3
       (fun l => { l with st := .catchup, horizon := 0 }))
     ((s.stack 0).layer 3).behind = true ∧ (s.stack 0).colseq - ((s.stack 0).layer 3).horizon ≤ 4096 ∧
       (∀ z, z < 16 → ((s.stack 0).layer z).behind = true → ((s.stack 0).layer 3).horizon ≤ ((s.stack 0).layer z).horizon) ∧
       (s.stack 0).colLog[(s.stack 0).colLog.length - ((s.stack 0).colseq - ((s.stack 0).layer 3).horizon)]? = some e) ∧
    (let s := base.modStack 0 (fun t => { t with colseq := 5000 }.modLayer 3 (fun l => { l with st := .catchup }))
     ((s.stack 0).layer 3).behind = true ∧ 4096 < (s.stack 0).colseq - ((s.stack 0).layer 3).horizon) ∧
    (let s := base.modStack 0 (fun t => t.modLayer 15 (fun l => { l with st := .catchup, powered := false }))
     ((s.stack 0).layer 15).st = .catchup ∧ ((s.stack 0).layer 15).powered = false) := by decide +kernel

theorem range_cut {s : State} {k : AKind} {pa m n : Nat} (h : cmdRange s k pa m = true) (hn : n ≤ m) :
    cmdRange s k pa n = true := by
  obtain ⟨d, rfl⟩ := Nat.le.dest hn
  simp only [cmdRange, List.all_eq_true] at h ⊢
  refine fun a ha => h a ?_
  clear h hn
  induction n generalizing pa with
  | zero => cases ha
  | succ n ih =>
    rw [Nat.succ_add]
    rcases List.mem_cons.1 ha with rfl | ha
    · exact List.mem_cons_self
    · exact List.mem_cons_of_mem _ (ih ha)
theorem wit_LifeEvents :
    (MailboxFree base ∧ base.veldBusy = false ∧ base.softErr = [] ∧ cmdRange base .read 0x8000 64 = true ∧
      rawNat base 0x8000 64 / 2 ^ 496 % 2 ^ 16 = 0 ∧
      (base.ctx (rawNat base 0x8000 64 / 2 ^ 480 % 2 ^ 16)).installed = false ∧ base.ctxHarts 0 = []) ∧
    ((base.ctx 1).installed = true ∧ pcField (base.ctx 1).exitv ≠ 0 ∧ ∀ h ∈ base.ctxHarts 1, (base.stack (h / 32)).halted = false) ∧
    (let s := { base with fuse := .debug }.modStack 0 (fun t => { t with halted := true })
     MailboxFree s ∧ s.fuse = .debug ∧ (s.stack 0).halted = true ∧ (∀ e ∈ s.ctxs, e.2.removing = none) ∧ base.fuse ≠ .debug) ∧
    (cmdRange base .write 0x8000 (256 * 8 + 96 * 2 + 2 + Config.healthPad % 1024) = true ∧
      cmdRange base .write 0x01FF00000000 (256 * 8 + 96 * 2 + 2 + Config.healthPad % 1024) = false) ∧
    (base.slow = [] ∧ base.veldDelay = [] ∧ ceilingOk base (0, 8) = true ∧
      ((base.modStack 0 (fun t => t.modLayer 3 (fun l => { l with st := .asleep }))).stack 0).layer 3 =
        { (base.stack 0).layer 3 with st := .asleep } ∧ (∀ c, c < 64 → 48 ≤ (base.core c).ceiling) ∧
      ((base.modCore 5 (fun c => { c with ceiling := 47 })).core 5).ceiling < 48) ∧
    (let s : State := { (vecSt 2 4 (fun x => { x with next := 0 })).modCore 0 (fun c => { c with reduceAt := some 0 }) with clock := 2000 }
     (s.core 0).reduceAt = some 0 ∧ 0 + 2000 ≤ s.clock ∧ reductionPending s 0 = true) ∧
    State.reset.life = .boot ∧
    (let s : State := { State.reset with life := .wipe, fuseNew := some .debug }
     s.life = .wipe ∧ s.held = [] ∧ s.fuseNew = some .debug) := by
  have hp : Config.healthPad % 1024 < 1024 := Nat.mod_lt _ (by decide)
  refine ⟨⟨by unfold MailboxFree; decide +kernel, by decide +kernel, rfl, by decide +kernel, by decide +kernel, by decide +kernel,
      by decide +kernel⟩,
    by decide +kernel, by unfold MailboxFree; decide +kernel,
    ⟨range_cut (m := 4096) (by decide +kernel) (by omega), ?_⟩, by decide +kernel, by decide +kernel, rfl, rfl, rfl, rfl⟩
  cases h : cmdRange base .write 0x01FF00000000 (256 * 8 + 96 * 2 + 2 + Config.healthPad % 1024) with
  | false => rfl
  | true => exact absurd (range_cut (n := 1) h (by omega)) (by decide +kernel)

/-! Steps. -/

def lineCheck (p : State) (f : Except (Nat × W) Instr → Bool) : Bool :=
  match EStateM.run (do fetchLine (← myRq) (lineOf (p.hart 0).pc)) p with
  | .ok now v => f (lineInstr (hartLine v 0 (lineOf (p.hart 0).pc).toNat now).1 (p.hart 0).pc)
  | .error _ _ => false
theorem line_of_check {p : State} {f : Except (Nat × W) Instr → Bool} (h : lineCheck p f = true) :
    ∃ line u, Fetched p 0 line u ∧ f (lineInstr line (p.hart 0).pc) = true := by
  unfold lineCheck at h
  split at h
  · rename_i now v e
    exact ⟨_, _, ⟨now, v, e, rfl, rfl⟩, h⟩
  · cases h
def fetchSt : State := State.reset.withFetchWord 16 0
/-- A NOP to fetch; a line of zeros; an event; a queue entry; a delivery at the boundary. -/
theorem wit_StepRunsTheDecodedInstruction :
    (MayFetch (passTime fetchSt) 0 ∧ ∃ line u, Fetched (passTime fetchSt) 0 line u ∧
      (match lineInstr line ((passTime fetchSt).hart 0).pc with
        | .ok i => decide (i = .nop)
        | .error _ => false) = true) ∧
    (∃ line u, Fetched (passTime base) 0 line u ∧
      (match lineInstr line ((passTime base).hart 0).pc with
        | .ok _ => false
        | .error e => decide (e.1 = 0x0C)) = true) ∧
    (let s : State := { base with sched := [.event .evReset] }
     (passTime s).sched = [.event .evReset] ∧ encode .evReset = none) ∧
    (let s := base.modHart 0 (fun x => { x with vq := [entryOf x (.mzero 0)] })
     (passTime s).agent.base = .hart 0 ∧ ((passTime s).hart 0).owed = false ∧ ((passTime s).hart 0).vq = (s.hart 0).vq ∧
       queueRuns (passTime s) 0 = true ∧ answerLands (passTime s) 0 = false) ∧
    (let q := { rq0 with phase := .done, hops := 0 }
     let s := (withReq q).modHart 0 (fun x => { x with await := some 7 })
     (passTime s).sched = [] ∧ (passTime s).agent.base = .hart 0 ∧ ((passTime s).hart 0).owed = false ∧
       hartRuns (passTime s) 0 = true ∧ (awaited (passTime s) 0).isSome = true ∧ answerLands (passTime s) 0 = true) ∧
    (let s := base.modHart 0 (fun x => { x with hstat := 0x300 })
     (passTime s).sched = [] ∧ ((passTime s).hart 0).await = none ∧ ((passTime s).hart 0).owed = false ∧
       hartRuns (passTime s) 0 = true ∧ (boundary (passTime s) 0).isSome = true) := by
  refine ⟨⟨by unfold MayFetch; decide +kernel, line_of_check (f := fun x => match x with
      | .ok i => decide (i = .nop)
      | .error _ => false) (by decide +kernel)⟩, line_of_check (f := fun x => match x with
      | .ok _ => false
      | .error e => decide (e.1 = 0x0C)) (by decide +kernel), ⟨by decide +kernel, rfl⟩, by decide +kernel, by decide +kernel,
    by decide +kernel⟩
def addiEnc : Enc := { tl := 2, op := 0x20, d := 4, tail := 0xFFC00004 }
theorem wit_DecodeInvertsEncode : wellFormed (.addiTl2 4 4 0x3FF) = true ∧ encode (.addiTl2 4 4 0x3FF) = some addiEnc ∧
    decodeEnc addiEnc = some (.addiTl2 4 4 0x3FF) := by decide
theorem wit_StepKeepsMemoryCanonical : Memory.wf fetchSt.mem = true ∧
    (match step fetchSt with
      | .next _ => true
      | .fault _ => false
      | .refused _ => false) = true := by decide +kernel

/-! Worked examples of the spec; each test names where its expected values stand. -/

/-- A line from its halfwords. -/
def lineOfHalves (l : List Nat) : Nat := l.foldr (fun x n => x + 65536 * n) 0
def isInstr (i : Instr) : Except (Nat × W) Instr → Bool
  | .ok j => decide (i = j)
  | .error _ => false
/-- The mixed line of spec/06_encoding_notes.md. -/
def mixedLine : Nat :=
  lineOfHalves ([0x0004, 0xCA07, 0x9188, 0x4049, 0x4989] ++ List.replicate 20 0 ++
    [0x0109, 0x0207, 0x000A, 0x0400, 0x0000, 0x5678, 0x1234])
theorem test_mixed_line : isInstr (.liTl3 7 0x12345678) (lineInstr mixedLine 0x4002) = true ∧
    isInstr (.lddTl2 8 10 16) (lineInstr mixedLine 0x4004) = true ∧ isInstr (.add 9 7 8) (lineInstr mixedLine 0x4006) = true ∧
    isInstr (.srli 9 9 4) (lineInstr mixedLine 0x4008) = true ∧ lineNH mixedLine = 4 := by decide +kernel
/-- The loop of R81: BNE of slot 3 goes back to slot 1. -/
theorem test_backward_branch : branchTarget 0x10006 1 = 0x10002 := by decide
/-- R34: the route from stack 0 to stack 6 and its reset value. -/
theorem test_route_reset : (State.reset.stack 0).route 0 6 = 0x30000025#32 := by decide +kernel

/-- A state that a step leaves and a test of it. -/
def after (s : State) (i : Instr) (p : State → Bool) : Bool :=
  match exec i s with
  | .next t => p t
  | .fault _ => false
  | .refused _ => false
/-- What hart 0 has in register `d` after an instruction. -/
def gives (f : Hart → Hart) (i : Instr) (d : SReg) (v : W) : Bool := after (withHart f) i (fun t => decide ((t.hart 0).rd d = v))
/-- The table of spec/10_isa_scalar_notes.md, division at the edges. -/
theorem test_division_edges :
    gives (fun x => x.wr 5 7) (.div 7 5 0) 7 0xFFFFFFFFFFFFFFFF = true ∧ gives (fun x => x.wr 5 7) (.rem 7 5 0) 7 7 = true ∧
    gives (fun x => x.wr 5 5) (.divn 7 5 0) 7 0xFFFFFFFFFFFFFFFF = true ∧ gives (fun x => x.wr 5 5) (.remn 7 5 0) 7 5 = true ∧
    gives (fun x => (x.wr 5 0xFFFFFFFFFFFFFFF9).wr 6 2) (.div 7 5 6) 7 0xFFFFFFFFFFFFFFFD = true ∧
    gives (fun x => (x.wr 5 0xFFFFFFFFFFFFFFF9).wr 6 2) (.rem 7 5 6) 7 0xFFFFFFFFFFFFFFFF = true ∧
    gives (fun x => (x.wr 5 0x8000000000000000).wr 6 0xFFFFFFFFFFFFFFFF) (.div 7 5 6) 7 0x8000000000000000 = true ∧
    gives (fun x => (x.wr 5 0x8000000000000000).wr 6 0xFFFFFFFFFFFFFFFF) (.rem 7 5 6) 7 0 = true := by decide +kernel
theorem test_high_multiply :
    gives (fun x => x.wr 5 0xFFFFFFFFFFFFFFFF) (.mulh 7 5 5) 7 0 = true ∧
    gives (fun x => x.wr 5 0xFFFFFFFFFFFFFFFF) (.mulhn 7 5 5) 7 0xFFFFFFFFFFFFFFFE = true := by decide +kernel
/-- R148: the constant 0x0123456789ABCDEF by LI and LIH. -/
theorem test_constant : gives id (.liTl3 7 0x89ABCDEF) 7 0xFFFFFFFF89ABCDEF = true ∧
    gives (fun x => x.wr 7 0xFFFFFFFF89ABCDEF) (.lih 7 0x01234567) 7 0x0123456789ABCDEF = true := by decide +kernel
/-- R184: the AMOCAS of step 4 fails and that of step 7 succeeds. -/
theorem test_compare_and_swap :
    (let s (n : W) := ((withHart (fun x => ((x.wr 10 0x8000).wr 7 n).wr 6 (n + 1))).putNat 0x8000 8 2)
     after (s 1) (.amocas 7 7 6 10 true .dv) (fun t => decide (t.natAt 0x8000 8 = 2) && decide ((t.hart 0).rd 7 = 2)) = true ∧
     after (s 2) (.amocas 7 7 6 10 true .dv) (fun t => decide (t.natAt 0x8000 8 = 3) && decide ((t.hart 0).rd 7 = 2)) = true) := by
  decide +kernel
/-- The examples after R62: VLMAX at CUR 48 and 28, and the zero grant. -/
def granted (n : Nat) : State := withHart (fun x => { x.wr 5 200000 with cur := n, next := n })
theorem test_set_vl :
    after (granted 48) (.setvl 7 { fz := 0, lm := 0, sew := 2 } 5) (fun t => decide (fld (t.hart 0).vl 0 18 = 6144)) = true ∧
    after (granted 28) (.setvl 7 { fz := 0, lm := 1, sew := 1 } 5) (fun t => decide (fld (t.hart 0).vl 0 18 = 14336)) = true := by
  decide +kernel

/-- The store conversions of spec/08_numbers_notes.md, E4M3 saturates: FP32 460.0, 464.0, 470.0, 449.0, 60,000.0, 61,440.0
and -70,000.0. -/
theorem test_float8_stores :
    [toFmt 32 0 4 0x43E60000, toFmt 32 0 4 0x43E80000, toFmt 32 0 4 0x43EB0000, toFmt 32 3 4 0x43E08000,
      toFmt 32 0 4 0x47700000, toFmt 32 2 4 0xC788B800] = [(0x7E, 1), (0x7E, 1), (0x7E, 5), (0x7E, 5), (0x7E, 5), (0xFE, 5)] ∧
    [toFmt 32 0 3 0x43E60000, toFmt 32 0 3 0x43EB0000, toFmt 32 3 3 0x43E08000, toFmt 32 0 3 0x476A6000,
      toFmt 32 0 3 0x47700000, toFmt 32 1 3 0x47700000, toFmt 32 2 3 0xC788B800] =
      [(0x5F, 1), (0x5F, 1), (0x60, 1), (0x7B, 1), (0x7C, 5), (0x7B, 1), (0xFC, 5)] := by decide +kernel
/-- The block of 32 values of spec/08_numbers_notes.md. -/
def block32 : List (Option FVal) := (List.range 32).map (fun i => some (layFP32.val
  (if i = 5 then 0x41C00000 else if i = 20 then 0xC2200000 else if i % 2 = 0 then 0x3F800000 else 0xBF000000)))
theorem test_block_plain : blkStore 0 19 0 block32 =
    ([0x84, 0, 0, 0x30, 0, 0, 0, 0, 0, 0, 0, 0x0B, 0, 0, 0, 0, 0], [0, 0], 1) := by decide +kernel
theorem test_block_outliers : blkStore 0 19 2 block32 =
    ([0x7F, 0xE4, 0xE4, 0x04, 0xE4, 0xE4, 0xE4, 0xE4, 0xE4, 0xE4, 0xE4, 0xE0, 0xE4, 0xE4, 0xE4, 0xE4, 0xE4],
      [0x8014D100, 0x80054E00], 0) := by decide +kernel
/-- The ragged block: 80 elements with ROWLEN = 40. -/
theorem test_ragged_blocks : (blkOf 19 40 80 39, blkOf 19 40 80 40, blkOf 19 40 80 79, blkCount 19 40 80) =
    ((1, 7), (2, 0), (3, 7), 4) := by decide
/-- R133: two entries of EXPT. -/
theorem test_exp_table : expT.getD 0 0 = 0x3F800000 ∧ expT.getD 16 0 = 0x3FB504F3 := by decide
/-- The first step of a program placed after reset runs it: a NOP goes to the next line. -/
theorem test_first_step :
    (match step (State.reset.withFetchWord 16 0) with
      | .next t => decide ((t.hart 0).pc = 0x4042)
      | .fault _ => false
      | .refused _ => false) = true := by decide +kernel
/-- The words after R324 of spec/17_veld.md. -/
theorem test_micro_moves :
    (mvKind 0x1FC00000, mvDst 0x1FC00000, mvSrc 0x1FC00000, mvMod 0x1FC00000) = (1, 1008, 0, 0) ∧
    (mvKind 0x20240000, mvDst 0x20240000) = (2, 9) ∧
    (mvKind 0x30501501, mvDst 0x30501501, mvSrc 0x30501501, mvMod 0x30501501) = (3, 20, 21, 1) ∧
    (mvKind 0x800C0D01, mvDst 0x800C0D01, mvSrc 0x800C0D01, mvMod 0x800C0D01) = (8, 3, 13, 1) ∧ mvKind 0xF0000000 = 15 := by
  decide

end Sys2Proof.Tests
end

section
/-! Running the bodies of instructions: what their common parts do, and how a hart or a sequencer goes on after them. -/
namespace Sys2Proof.Machine
open Sys2Proof.Obl

variable {α β : Type}

/-- A body that begins with a part that completes goes on from there. -/
theorem run_bind_ok {m : X α} {f : α → X β} {s t : State} {a : α} (h : m.run s = .ok a t) :
    (m >>= f).run s = (f a).run t := by
  simp only [EStateM.run] at h ⊢
  simp only [Bind.bind, EStateM.bind, h]

/-! What the first part of a body does. These hold by definition, and stand here as equations to rewrite with: unfolded
together with what follows them they are costly to check. -/

theorem run_get_bind (f : State → X β) (s : State) : (get >>= f).run s = (f s).run s := (rfl)
theorem run_pure (a : α) (s : State) : (pure a : X α).run s = .ok a s := (rfl)
theorem run_modify (f : State → State) (s : State) : (modify f : X Unit).run s = .ok () (f s) := (rfl)
theorem run_trap (c : Nat) (v : W) (s : State) : (trap c v : X α).run s = .error (.trap c v 0) s := (rfl)
theorem run_stall (s : State) : (stall : X α).run s = .error .stall s := (rfl)
theorem run_rd (n : SReg) (s : State) : (rd n).run s = .ok (rdS (agentRegs s) n.val) s := (rfl)
theorem run_myCore (s : State) : myCore.run s = .ok (agentCore s) s := (rfl)
theorem run_me (s : State) : me.run s = .ok (agentHart s) s := (rfl)
theorem run_myHart (s : State) : myHart.run s = .ok (s.hart (agentHart s)) s := (rfl)
theorem run_onMe (g : Hart → Hart) (s : State) : (onMe g).run s = .ok () (s.modHart (agentHart s) g) := (rfl)

/-- Window writes of which none is named stay as they are. -/
theorem flushParts_none {now : WinPart → Bool} {s : State} (h : ∀ w ∈ s.winParts, now w = false) : flushParts now s = s := by
  unfold flushParts
  split
  · rfl
  · have e1 : s.winParts.filter now = [] := by simpa using h
    have e2 : s.winParts.filter (fun w => !now w) = s.winParts := by simpa using h
    rw [e1, e2]
    rfl

/-- A hart with no access under way need not wait for one (R165). -/
theorem run_needPosted {s : State} {h : Nat} (ha : s.agent = .hart h) (hp : NoPosted s h) :
    needPosted.run s = .ok () s := by
  obtain ⟨hr, hw⟩ := hp
  have e1 : s.reqs.any (fun e => e.2.src == h) = false := by simpa using hr
  have e2 : flushParts (fun w => w.who == h) s = s := flushParts_none (by simpa using hw)
  unfold needPosted
  simp [agentHart, whoOf, ha, e1, e2]

/-- A hart with nothing under way need not wait for its earlier accesses (R267, R309). -/
theorem run_needAll {s : State} {h : Nat} (ha : s.agent = .hart h) (hp : NoPosted s h)
    (hq : (s.hart h).vq = []) (hc : (s.hart h).colPend = 0) : needAll.run s = .ok () s := by
  unfold needAll
  simp [ha, hq, hc, run_needPosted ha hp]

/-- A sync instruction whose body completes. -/
theorem syncX_ok {i : Instr} {body : X Unit} {s t : State} (h : body.run s = .ok () t) :
    syncX i body s = .next (advance t false) := by
  rw [syncX, h]
  rfl

/-- A sync instruction whose body traps. -/
theorem syncX_trap {i : Instr} {body : X Unit} {s t : State} {c k : Nat} {v : W} (h : body.run s = .error (.trap c v k) t)
    (hw : trapWaits s false = false) : syncX i body s = .next (raise t i false c v k) := by
  rw [syncX, h, finish, hw]
  rfl

/-- A scalar instruction of a hart whose body completes. -/
theorem scalarX_ok {i : Instr} {body : X Unit} {s t : State} {h : Nat} (ha : s.agent = .hart h)
    (hb : body.run s = .ok () t) : scalarX i body s = .next (advance t false) := by
  rw [scalarX, ha, if_neg (by simp [Agent.isSeq]), hb]
  rfl

/-- Nothing but the hart has changed after one more change of it. -/
theorem onlyHart_modHart {s t : State} {h : Nat} (ho : OnlyHart s t h) (f : Hart → Hart) : OnlyHart s (t.modHart h f) h :=
  ⟨ho.1, fun k hk => (State.hart_modHart_ne _ _ hk).trans (ho.2 k hk)⟩

theorem onlyHart_refl (s : State) (h : Nat) : OnlyHart s s h := ⟨rfl, fun _ _ => rfl⟩

/-- A hart goes past a completed scalar instruction, with its registers as they were (R84). -/
theorem advance_hart_past {s : State} {h : Nat} (e : s.agent = .hart h) :
    Past (s.hart h) ((advance s false).hart h) ∧ SameRegs (s.hart h) ((advance s false).hart h) := by
  rw [advance_hart e, State.hart_modHart_same]
  exact ⟨⟨rfl, rfl⟩, fun _ => rfl⟩

/-- Nothing but the hart changes where it goes past an instruction. -/
theorem advance_hart_onlyHart {s : State} {h : Nat} (e : s.agent = .hart h) : OnlyHart s (advance s false) h := by
  rw [advance_hart e]
  exact ⟨rfl, fun k hk => State.hart_modHart_ne _ _ hk⟩

theorem advance_hart_mem {s : State} {h : Nat} (e : s.agent = .hart h) : (advance s false).mem = s.mem := by
  rw [advance_hart e]
  rfl

/-- A trap that is not nested at its own level enters its handler (R387). -/
theorem takeTrap_of_canTrap {s : State} {h code : Nat} (hc : CanTrap s h code) (tval : W) (async imp : Bool) (idx : Nat)
    (pc : W) (img : Option (List VEntry × W)) : takeTrap s h code tval async imp idx pc img =
    s.setHart h { (s.hart h).enter (targetOf (s.hart h) code) (handlerOf s h code)
      (wd (b01 async * 2 ^ 63 + b01 imp * 2 ^ 62 + code)) tval
      (if code = cECALLN ∨ code = cECALLS then nextPC pc (s.hart h).nh else pc) idx img with vecNo := s.nextNo h } := by
  obtain ⟨hv, hn⟩ := hc
  have hn' : ¬((s.hart h).inHandler && decide (targetOf (s.hart h) code = (s.hart h).level)) = true := by simpa using hn
  exact (if_neg hv).trans (if_neg hn')

/-- A precise trap of a hart's scalar instruction, with its vector queue empty (R388). -/
theorem raise_scalar {s : State} {h : Nat} (ha : s.agent = .hart h) (hq : (s.hart h).vq = []) (i : Instr) (code : Nat)
    (tval : W) (idx : Nat) :
    raise s i false code tval idx = takeTrap s h code tval false false idx (s.hart h).pc none := by
  simp [raise, ha, hq]

/-- The frame of a hart's change after a store. -/
theorem State.modHart_stored_frame {s u : State} (h : Nat) (f : Hart → Hart)
    (hu : { u with mem := s.mem, poison := s.poison, lost := s.lost } = s) :
    { u.modHart h f with harts := s.harts, mem := s.mem, poison := s.poison, lost := s.lost } = s := by
  rw [← hu]
  rfl

/-- The frame of a core's change after a store. -/
theorem State.modCore_stored_frame {s u : State} (c : Nat) (f : Core → Core)
    (hu : { u with mem := s.mem, poison := s.poison, lost := s.lost } = s) :
    { u.modCore c f with cores := s.cores, mem := s.mem, poison := s.poison, lost := s.lost } = s := by
  rw [← hu]
  rfl

/-- A change of a core changes no memory. -/
theorem State.modCore_mem (s : State) (c : Nat) (f : Core → Core) : (s.modCore c f).mem = s.mem := rfl

/-- A change of a core changes nothing but the cores. -/
theorem State.modCore_frame (s : State) (c : Nat) (f : Core → Core) : { s.modCore c f with cores := s.cores } = s := rfl

end Sys2Proof.Machine
end

section
/-! The bytes of memory: numbers stored and read (R5), and stores to memory that keeps poison per part (R240). -/
namespace Sys2Proof.Machine
open Sys2Proof.Obl

@[simp] theorem upto_length (a n : Nat) : (upto a n).length = n := by
  induction n generalizing a with
  | zero => rfl
  | succ n ih => simp [upto, ih]

theorem getElem_upto (a n i : Nat) (h : i < (upto a n).length) : (upto a n)[i] = a + i := by
  induction n generalizing a i with
  | zero => simp at h
  | succ n ih =>
    cases i with
    | zero => rfl
    | succ i =>
      simp only [upto, List.getElem_cons_succ]
      rw [ih]
      omega

@[simp] theorem leBytes_length (n x : Nat) : (leBytes n x).length = n := by
  induction n generalizing x with
  | zero => rfl
  | succ n ih => simp [leBytes, ih]

/-- A byte more multiplies the range by 256. -/
theorem two_pow_byte_succ (i : Nat) : 2 ^ (8 * (i + 1)) = 256 * 2 ^ (8 * i) := by
  rw [Nat.mul_succ, Nat.pow_add, Nat.mul_comm]

/-- Byte `i` of a number (R5). -/
theorem getElem_leBytes (n x i : Nat) (h : i < (leBytes n x).length) :
    (leBytes n x)[i] = BitVec.ofNat 8 (x / 2 ^ (8 * i)) := by
  induction n generalizing x i with
  | zero => simp at h
  | succ n ih =>
    cases i with
    | zero => simp [leBytes]
    | succ i =>
      simp only [leBytes, List.getElem_cons_succ]
      rw [ih, Nat.div_div_eq_div_mul, two_pow_byte_succ]

/-- The bytes of a number are the number's low bytes again (R5). -/
theorem leNat_leBytes (n x : Nat) : leNat (leBytes n x) = x % 2 ^ (8 * n) := by
  induction n generalizing x with
  | zero => simp [leBytes, leNat, Nat.mod_one]
  | succ n ih =>
    rw [leBytes, leNat, ih, two_pow_byte_succ, Nat.mod_mul, BitVec.toNat_ofNat]

/-- A number of `n` bytes is below 2^(8n) (R5). -/
theorem leNat_lt (l : List Byte) : leNat l < 2 ^ (8 * l.length) := by
  induction l with
  | nil => simp [leNat]
  | cons b r ih =>
    have hb := b.isLt
    rw [leNat, List.length_cons, two_pow_byte_succ]
    omega

theorem State.natAt_lt (s : State) (a n : Nat) : s.natAt a n < 2 ^ (8 * n) := by
  have h := leNat_lt ((upto a n).map s.byteAt)
  rwa [List.length_map, upto_length] at h

/-- Stored byte `i` of a number reads back (R5). -/
theorem State.byteAt_putNat_in (s : State) (a n x : Nat) {i : Nat} (h : i < n) :
    (s.putNat a n x).byteAt (a + i) = BitVec.ofNat 8 (x / 2 ^ (8 * i)) := by
  rw [State.putNat, State.byteAt_putBytes_in _ _ _ _ (by simpa using h), getElem_leBytes]

/-- A byte outside a stored number reads as before. -/
theorem State.byteAt_putNat_out (s : State) (a n x : Nat) {k : Nat} (h : k < a ∨ a + n ≤ k) :
    (s.putNat a n x).byteAt k = s.byteAt k :=
  s.byteAt_putBytes_out a k _ (by simpa using h)

/-- Storing a number changes memory alone. -/
theorem State.putNat_only_mem (s : State) (a n x : Nat) : s.putNat a n x = { s with mem := (s.putNat a n x).mem } :=
  s.putBytes_only_mem a _

/-- The bytes of a stored number, read in order, are the bytes stored. -/
theorem State.map_byteAt_putNat (s : State) (a n x : Nat) : (upto a n).map (s.putNat a n x).byteAt = leBytes n x := by
  refine List.ext_getElem (by simp) fun i h1 h2 => ?_
  rw [List.getElem_map, getElem_upto, getElem_leBytes, State.byteAt_putNat_in]
  simpa using h1

/-- A stored number reads back (R5). -/
theorem State.natAt_putNat (s : State) (a n x : Nat) : (s.putNat a n x).natAt a n = x % 2 ^ (8 * n) := by
  rw [State.natAt, State.map_byteAt_putNat, leNat_leBytes]

/-- Clearing the poison of the parts that a store covers whole changes poison alone. -/
theorem clearPoison_only (cov : Cov) (l : List Nat) (s : State) :
    let t := l.foldl (fun s p => if cov.parts.contains p then s.setPoison p false else s) s
    t = { s with poison := t.poison, lost := t.lost } := by
  induction l generalizing s with
  | nil => rfl
  | cons p l ih =>
    simp only [List.foldl_cons]
    split
    · exact (ih (s.setPoison p false)).trans rfl
    · exact ih s

/-- A store to memory with poison per part changes memory and poison alone. -/
theorem plainWrite_only (s : State) (a n x : Nat) (cov : Cov) :
    plainWrite s a n x cov = { s with mem := (plainWrite s a n x cov).mem, poison := (plainWrite s a n x cov).poison,
                                      lost := (plainWrite s a n x cov).lost } := by
  unfold plainWrite
  have h := clearPoison_only cov (partsOf a n) s
  generalize hu : (partsOf a n).foldl (fun s p => if cov.parts.contains p then s.setPoison p false else s) s = u
  simp only [hu] at h
  rw [u.putNat_only_mem, h]

/-- A store to memory with poison per part finds the bytes as they were. -/
theorem plainWrite_eq_putNat (s : State) (a n x : Nat) (cov : Cov) :
    ∃ u : State, u.mem = s.mem ∧ plainWrite s a n x cov = u.putNat a n x := by
  refine ⟨_, ?_, rfl⟩
  have h := clearPoison_only cov (partsOf a n) s
  rw [h]

theorem State.byteAt_congr {s t : State} (h : t.mem = s.mem) (a : Nat) : t.byteAt a = s.byteAt a := by
  unfold State.byteAt
  rw [h]

theorem plainWrite_byteAt_in (s : State) (a n x : Nat) (cov : Cov) {i : Nat} (h : i < n) :
    (plainWrite s a n x cov).byteAt (a + i) = BitVec.ofNat 8 (x / 2 ^ (8 * i)) := by
  obtain ⟨u, -, e⟩ := plainWrite_eq_putNat s a n x cov
  rw [e, State.byteAt_putNat_in _ _ _ _ h]

theorem plainWrite_byteAt_out (s : State) (a n x : Nat) (cov : Cov) {k : Nat} (h : k < a ∨ a + n ≤ k) :
    (plainWrite s a n x cov).byteAt k = s.byteAt k := by
  obtain ⟨u, hu, e⟩ := plainWrite_eq_putNat s a n x cov
  rw [e, State.byteAt_putNat_out _ _ _ _ h, State.byteAt_congr hu]

theorem plainWrite_natAt (s : State) (a n x : Nat) (cov : Cov) :
    (plainWrite s a n x cov).natAt a n = x % 2 ^ (8 * n) := by
  obtain ⟨u, -, e⟩ := plainWrite_eq_putNat s a n x cov
  rw [e, State.natAt_putNat]

theorem natAt_congr {s t : State} (h : t.mem = s.mem) (a n : Nat) : t.natAt a n = s.natAt a n := by
  unfold State.natAt State.byteAt
  rw [h]

end Sys2Proof.Machine
end

section
/-! The object of a transaction barrier (R261): its fields, read and written. -/
namespace Sys2Proof.Machine
open Sys2Proof.Obl

/-- Every field of a barrier lies in the range of its bits (R261). -/
def TBar.Fits (b : TBar) : Prop :=
  b.phase < 16 ∧ b.parr < 65536 ∧ b.iarr < 65536 ∧ -2 ^ 31 ≤ b.psec ∧ b.psec < 2 ^ 31

/-- The number of a bit is below 2. -/
theorem b01_lt (b : Bool) : b01 b < 2 := by cases b <;> decide

/-- A bit of a number as 0 or 1. -/
theorem b01_testBit (x i : Nat) : b01 (x.testBit i) = x / 2 ^ i % 2 := by
  rw [Nat.testBit_eq_decide_div_mod_eq, b01]
  simp only [decide_eq_true_eq]
  split <;> omega

/-- The low bits of a number read in two's complement lie in their range (R82). -/
theorem sInt_bounds (n : Nat) : -2 ^ 31 ≤ sInt 32 n ∧ sInt 32 n < 2 ^ 31 := by
  unfold sInt
  split <;> omega

/-- Bits above the lowest `w` do not matter to a reading in two's complement (R82). -/
theorem sInt_mod (w n : Nat) : sInt w (n % 2 ^ w) = sInt w n := by
  simp [sInt]

/-- The low 32 bits of an integer in range read back as it (R82). -/
theorem sInt_lowBits {i : Int} (h1 : -2 ^ 31 ≤ i) (h2 : i < 2 ^ 31) : sInt 32 (lowBits 32 i) = i := by
  have h : lowBits 32 i < 2 ^ 32 := by unfold lowBits; omega
  unfold sInt
  rw [Nat.mod_eq_of_lt h]
  unfold lowBits
  split <;> omega

theorem lowBits_lt (w : Nat) (i : Int) : lowBits w i < 2 ^ w := by
  have h1 : (0 : Int) < (2 ^ w : Nat) := by exact_mod_cast Nat.two_pow_pos w
  have h2 := Int.emod_lt_of_pos i h1
  have h3 := Int.emod_nonneg i (Int.ne_of_gt h1)
  unfold lowBits
  omega

/-- The fields of an object are those that `tbGet` reads (R261). -/
theorem barIs_iff {o ph ov er pa ia : Nat} {ps : Int} : BarIs o ph ov er pa ia ps ↔
    (tbGet o).phase = ph ∧ b01 (tbGet o).ovf = ov ∧ b01 (tbGet o).err = er ∧ (tbGet o).parr = pa ∧ (tbGet o).iarr = ia ∧
      (tbGet o).psec = ps := by
  have e : sInt 32 (o / 2 ^ 40 % 2 ^ 32) = sInt 32 (o / 2 ^ 40) := sInt_mod 32 _
  have hov : b01 (tbGet o).ovf = o / 16 % 2 := b01_testBit o 4
  have her : b01 (tbGet o).err = o / 32 % 2 := b01_testBit o 5
  have hps : (tbGet o).psec = sInt 32 (o / 2 ^ 40) := e
  rw [hov, her, hps]
  exact Iff.rfl

/-- What is read of an object fits. -/
theorem tbGet_fits (o : Nat) : (tbGet o).Fits :=
  ⟨Nat.mod_lt _ (by decide), Nat.mod_lt _ (by decide), Nat.mod_lt _ (by decide), (sInt_bounds _).1, (sInt_bounds _).2⟩

/-- The completion check keeps every field in its range. -/
theorem TBar.check_fits {b : TBar} (h : b.Fits) : b.check.Fits := by
  unfold TBar.check
  obtain ⟨h1, h2, h3, h4, h5⟩ := h
  split
  · exact ⟨Nat.mod_lt _ (by decide), h3, h3, h4, h5⟩
  · exact ⟨h1, h2, h3, h4, h5⟩

/-- The fields of `b` stand in the object `o`. -/
def HoldsBar (o : Nat) (b : TBar) : Prop := BarIs o b.phase (b01 b.ovf) (b01 b.err) b.parr b.iarr b.psec
/-- The fields of `b` after the completion check stand in the object `o`. -/
def HoldsChecked (o : Nat) (b : TBar) : Prop := BarChecked o b.phase (b01 b.ovf) (b01 b.err) b.parr b.iarr b.psec

/-- The completion check of the model is that of R261. -/
theorem holdsChecked_of_check {o : Nat} {b : TBar} (h : HoldsBar o b.check) : HoldsChecked o b := by
  unfold HoldsBar TBar.check at h
  unfold HoldsChecked BarChecked
  split at h <;> rename_i hc
  · rw [if_pos hc]
    rw [hc.2] at h
    exact h
  · rw [if_neg hc]
    exact h

/-- An object in which every field has been written. -/
theorem tbPut_eq (x : Nat) {b : TBar} (h : b.Fits) : tbPut x b =
    b.phase + b01 b.ovf * 16 + b01 b.err * 32 + x / 64 % 4 * 64 + b.parr * 2 ^ 8 + b.iarr * 2 ^ 24 +
      lowBits 32 b.psec * 2 ^ 40 + x / 2 ^ 72 * 2 ^ 72 := by
  obtain ⟨h1, h2, h3, -, -⟩ := h
  rw [tbPut, Nat.mod_eq_of_lt h1, Nat.mod_eq_of_lt h2, Nat.mod_eq_of_lt h3]

theorem holdsBar_tbPut (x : Nat) {b : TBar} (h : b.Fits) : HoldsBar (tbPut x b) b := by
  have hov := b01_lt b.ovf
  have her := b01_lt b.err
  have hl := lowBits_lt 32 b.psec
  have hs : sInt 32 (tbPut x b / 2 ^ 40) = b.psec := by
    have e : tbPut x b / 2 ^ 40 % 2 ^ 32 = lowBits 32 b.psec := by
      rw [tbPut_eq x h]
      obtain ⟨h1, h2, h3, -, -⟩ := h
      omega
    rw [← sInt_mod, e, sInt_lowBits h.2.2.2.1 h.2.2.2.2]
  refine ⟨?_, ?_, ?_, ?_, ?_, hs⟩ <;> rw [tbPut_eq x h] <;> obtain ⟨h1, h2, h3, -, -⟩ := h <;> omega

theorem tbPut_reserved (x : Nat) {b : TBar} (h : b.Fits) :
    tbPut x b / 64 % 4 = x / 64 % 4 ∧ tbPut x b / 2 ^ 72 = x / 2 ^ 72 := by
  have hov := b01_lt b.ovf
  have her := b01_lt b.err
  have hl := lowBits_lt 32 b.psec
  rw [tbPut_eq x h]
  obtain ⟨h1, h2, h3, -, -⟩ := h
  constructor <;> omega

/-- An object stays a number of 16 bytes. -/
theorem tbPut_lt {x : Nat} (hx : x < 2 ^ 128) {b : TBar} (h : b.Fits) : tbPut x b < 2 ^ 128 := by
  have hov := b01_lt b.ovf
  have her := b01_lt b.err
  have hl := lowBits_lt 32 b.psec
  rw [tbPut_eq x h]
  obtain ⟨h1, h2, h3, -, -⟩ := h
  omega

/-- An object from its fields and reserved bits (R261). -/
theorem bar_split (x : Nat) : x = x % 16 + x / 2 ^ 4 % 2 * 16 + x / 2 ^ 5 % 2 * 32 + x / 64 % 4 * 64 +
    x / 2 ^ 8 % 65536 * 2 ^ 8 + x / 2 ^ 24 % 65536 * 2 ^ 24 + x / 2 ^ 40 % 2 ^ 32 * 2 ^ 40 + x / 2 ^ 72 * 2 ^ 72 := by
  have h5 : x / 2 ^ 5 = x / 2 ^ 4 / 2 := by omega
  have h6 : x / 64 = x / 2 ^ 5 / 2 := by omega
  have h8 : x / 2 ^ 8 = x / 64 / 4 := by omega
  have h24 : x / 2 ^ 24 = x / 2 ^ 8 / 65536 := by omega
  have h40 : x / 2 ^ 40 = x / 2 ^ 24 / 65536 := by omega
  have h72 : x / 2 ^ 72 = x / 2 ^ 40 / 2 ^ 32 := by omega
  have h4 : x = x % 16 + 16 * (x / 2 ^ 4) := (Nat.mod_add_div x 16).symm
  generalize x / 2 ^ 72 = y72 at *
  generalize x / 2 ^ 40 = y40 at *
  generalize x / 2 ^ 24 = y24 at *
  generalize x / 2 ^ 8 = y8 at *
  generalize x / 64 = y6 at *
  generalize x / 2 ^ 5 = y5 at *
  generalize x / 2 ^ 4 = y4 at *
  omega
/-- A number of 32 bits is that of its reading in two's complement (R82). -/
theorem lowBits_sInt {n : Nat} (h : n < 2 ^ 32) : lowBits 32 (sInt 32 n) = n := by
  unfold sInt lowBits
  rw [Nat.mod_eq_of_lt h]
  split <;> omega

/-- Setting OVF alone changes no other bit of the object (R305). -/
theorem tbPut_setOvf (x : Nat) : tbPut x { tbGet x with ovf := true } = x - x / 16 % 2 * 16 + 16 := by
  have hl : lowBits 32 (tbGet x).psec = x / 2 ^ 40 % 2 ^ 32 := lowBits_sInt (Nat.mod_lt _ (by decide))
  have her : b01 (tbGet x).err = x / 2 ^ 5 % 2 := b01_testBit x 5
  have e : tbPut x { tbGet x with ovf := true } = x % 16 + 16 + x / 2 ^ 5 % 2 * 32 + x / 64 % 4 * 64 +
      x / 2 ^ 8 % 65536 * 2 ^ 8 + x / 2 ^ 24 % 65536 * 2 ^ 24 + x / 2 ^ 40 % 2 ^ 32 * 2 ^ 40 + x / 2 ^ 72 * 2 ^ 72 := by
    rw [tbPut_eq x (b := { tbGet x with ovf := true }) (tbGet_fits x), hl, her]
    rfl
  have hs : tbPut x { tbGet x with ovf := true } + x / 2 ^ 4 % 2 * 16 = x + 16 := by
    have hx := bar_split x
    omega
  clear e hl her
  omega

end Sys2Proof.Machine
end

section
/-! The transaction barriers (R304 to R306, R314), in harts and in sequencers. -/
namespace Sys2Proof.Machine
open Sys2Proof.Obl

/-! The object of a barrier, written. -/

/-- The object after an update that leaves fields `b` in it. -/
theorem barAt_tbWrite (s : State) (c off : Nat) {b : TBar} (h : b.Fits) :
    barAt (tbWrite s c off b) c off = tbPut (barAt s c off) b := by
  have hlt : tbPut (barAt s c off) b < 2 ^ (8 * 16) := tbPut_lt (s.natAt_lt _ 16) h
  unfold barAt tbWrite
  rw [plainWrite_natAt]
  exact Nat.mod_eq_of_lt hlt

/-- An update of a barrier's object changes memory and poison alone. -/
theorem tbWrite_only (s : State) (c off : Nat) (b : TBar) : tbWrite s c off b =
    { s with mem := (tbWrite s c off b).mem, poison := (tbWrite s c off b).poison, lost := (tbWrite s c off b).lost } :=
  plainWrite_only s _ _ _ _

theorem barWritten_tbWrite (s : State) (c off : Nat) {b : TBar} (h : b.Fits) : BarWritten s (tbWrite s c off b) c off := by
  refine ⟨fun a ha => plainWrite_byteAt_out s _ _ _ _ ha, ?_⟩
  rw [barAt_tbWrite s c off h]
  exact tbPut_reserved _ h

/-- The object after an update whose completion check follows (R261). -/
theorem holdsChecked_tbWrite (s : State) (c off : Nat) {b : TBar} (h : b.Fits) :
    HoldsChecked (barAt (tbWrite s c off b.check) c off) b := by
  rw [barAt_tbWrite s c off (TBar.check_fits h)]
  exact holdsChecked_of_check (holdsBar_tbPut _ (TBar.check_fits h))

/-- The object of a barrier whose update overflows has OVF set and is otherwise as it was (R305). -/
def overflowed (s : State) (c off : Nat) : State := tbWrite s c off { tbGet (barAt s c off) with ovf := true }

theorem setOvf_fits (o : Nat) : TBar.Fits { tbGet o with ovf := true } := tbGet_fits o

theorem barAt_overflowed (s : State) (c off : Nat) :
    barAt (overflowed s c off) c off = barAt s c off - barAt s c off / 16 % 2 * 16 + 16 := by
  rw [overflowed, barAt_tbWrite s c off (setOvf_fits _), tbPut_setOvf]

/-! What a barrier instruction does, whoever executes it. -/

/-- An offset that R304 accepts passes the checks. -/
theorem run_tbCheck {s : State} {w : W} (h : barOk s w.toNat) : (tbCheck w).run s = .ok w.toNat s := by
  obtain ⟨h1, h2⟩ := h
  unfold tbCheck
  simp [h1, spBytes, Nat.not_lt.mpr h2]

/-- An update that gives fields writes them after the completion check (R261). -/
theorem run_tbUpdate_some {s : State} {off : Nat} {f : TBar → Option TBar} {b : TBar}
    (h : f (tbGet (tbRead s (agentCore s) off)) = some b) :
    (tbUpdate off f).run s = .ok () (tbWrite s (agentCore s) off b.check) := by
  unfold tbUpdate
  rw [run_bind_ok (run_myCore s), run_get_bind]
  simp only [h, run_modify]

/-- An update that overflows sets OVF alone and traps (R305). -/
theorem run_tbUpdate_none {s : State} {off : Nat} {f : TBar → Option TBar}
    (h : f (tbGet (tbRead s (agentCore s) off)) = none) :
    (tbUpdate off f).run s = .error (.trap cBARRIER (wd off) 0)
      (tbWrite s (agentCore s) off { tbGet (tbRead s (agentCore s) off) with ovf := true }) := by
  unfold tbUpdate
  rw [run_bind_ok (run_myCore s), run_get_bind]
  simp only [h]
  rw [run_bind_ok (run_modify _ s), run_trap]

/-- Nothing that the agent has under way holds a barrier instruction of it back (R305, R314). -/
structure BarReady (s : State) : Prop where
  trapsNow : trapWaits s false = false
  released : ∀ arv, (tbRelease arv).run s = .ok () s
  faultless : ∀ arv o, unlessFaulted (fun s c => arv && seqCopies s c) s o = o

/-- The update of TBINIT (R304, R305). -/
def tbInit (n : Nat) (_ : TBar) : Option TBar :=
  if n = 0 ∨ 65535 < n then none else some { phase := 0, ovf := false, err := false, parr := n, iarr := n, psec := 0 }

/-- The update of TBARRIVE (R304, R305). -/
def tbArrive (x : TBar) : Option TBar := if x.parr = 0 then none else some { x with parr := x.parr - 1 }

/-- The instruction updates the barrier at `off` of the agent's core by `f`: it completes, or it overflows (R305). -/
def Updates (s : State) (i : Instr) (off : Nat) (f : TBar → Option TBar) : Prop :=
  match f (tbGet (barAt s (agentCore s) off)) with
  | some b => exec i s = .next (advance (tbWrite s (agentCore s) off b.check) false)
  | none => exec i s = .next (raise (overflowed s (agentCore s) off) i false cBARRIER (wd off) 0)

/-- A sync instruction whose body comes to the update of a barrier. -/
theorem updates_of_body {s : State} {i : Instr} {off : Nat} {f : TBar → Option TBar} {body : X Unit}
    (hw : trapWaits s false = false) (hb : body.run s = (tbUpdate off f).run s) (hx : exec i s = syncX i body s) :
    Updates s i off f := by
  unfold Updates
  split <;> rename_i hf <;> rw [hx]
  · exact syncX_ok (hb.trans (run_tbUpdate_some hf))
  · exact syncX_trap (hb.trans (run_tbUpdate_none hf)) hw

section
variable {s : State} {a b : SReg} (ho : barOk s (rdS (agentRegs s) a.val).toNat)
include ho

/-- TBINIT (R304, R305). -/
theorem updates_tbinit (hr : BarReady s) :
    Updates s (.tbinit a b) (rdS (agentRegs s) a.val).toNat (tbInit (rdS (agentRegs s) b.val).toNat) := by
  refine updates_of_body hr.trapsNow ?_ rfl
  rw [run_bind_ok (run_rd a s), run_bind_ok (run_tbCheck ho), run_bind_ok (run_rd b s)]
  rfl

/-- TBARRIVE (R304, R305, R314). -/
theorem updates_tbarrive (hr : BarReady s) : Updates s (.tbarrive a) (rdS (agentRegs s) a.val).toNat tbArrive := by
  refine updates_of_body hr.trapsNow ?_ (hr.faultless true _)
  rw [run_bind_ok (run_rd a s), run_bind_ok (run_tbCheck ho), run_bind_ok (hr.released true)]
  rfl

/-- TBEXPECT (R304, R305, R314). -/
theorem updates_tbexpect (hr : BarReady s) (arv : Bool) : Updates s (.tbexpect a b arv) (rdS (agentRegs s) a.val).toNat
    (tbExpect (rdS (agentRegs s) b.val).toNat arv) := by
  refine updates_of_body hr.trapsNow ?_ (hr.faultless arv _)
  rw [run_bind_ok (run_rd a s), run_bind_ok (run_tbCheck ho), run_bind_ok (run_rd b s),
    run_bind_ok (hr.released arv)]

/-- The body of TBWAIT compares the phase with the one it is given (R306). -/
theorem exec_tbwait_eq : exec (.tbwait a b) s = finish (.tbwait a b) false (fun t => advance t false) s
    ((if (tbGet (barAt s (agentCore s) (rdS (agentRegs s) a.val).toNat)).phase = (rdS (agentRegs s) b.val).toNat % 16
      then stall else pure () : X Unit).run s) := by
  show syncX _ _ s = _
  rw [syncX, run_bind_ok (run_rd a s), run_bind_ok (run_tbCheck ho), run_bind_ok (run_myCore s),
    run_bind_ok (run_rd b s), run_get_bind]
  rfl

/-- TBWAIT completes where the phase is another than the one it is given (R306). -/
theorem exec_tbwait_of_phase_ne
    (hp : (tbGet (barAt s (agentCore s) (rdS (agentRegs s) a.val).toNat)).phase ≠ (rdS (agentRegs s) b.val).toNat % 16) :
    exec (.tbwait a b) s = .next (advance s false) := by
  rw [exec_tbwait_eq ho, if_neg hp]
  rfl

/-- TBWAIT stays where it is while the phase is the one it is given (R306). -/
theorem exec_tbwait_of_phase_eq
    (hp : (tbGet (barAt s (agentCore s) (rdS (agentRegs s) a.val).toNat)).phase = (rdS (agentRegs s) b.val).toNat % 16) :
    exec (.tbwait a b) s = .next s := by
  rw [exec_tbwait_eq ho, if_pos hp, run_stall, finish, stalled_scalar]
end

/-- An update that takes the fields `b`. -/
theorem Updates.completes {s : State} {i : Instr} {off : Nat} {f : TBar → Option TBar} {b : TBar} (h : Updates s i off f)
    (hf : f (tbGet (barAt s (agentCore s) off)) = some b) :
    exec i s = .next (advance (tbWrite s (agentCore s) off b.check) false) := by
  unfold Updates at h
  rwa [hf] at h

/-- An update that overflows. -/
theorem Updates.overflows {s : State} {i : Instr} {off : Nat} {f : TBar → Option TBar} (h : Updates s i off f)
    (hf : f (tbGet (barAt s (agentCore s) off)) = none) :
    exec i s = .next (raise (overflowed s (agentCore s) off) i false cBARRIER (wd off) 0) := by
  unfold Updates at h
  rwa [hf] at h

/-! What the updates give. -/

theorem tbInit_some {n : Nat} (x : TBar) (h1 : 1 ≤ n) (h2 : n ≤ 65535) :
    tbInit n x = some { phase := 0, ovf := false, err := false, parr := n, iarr := n, psec := 0 } :=
  if_neg (by omega)

theorem tbInit_none {n : Nat} (x : TBar) (h : n = 0 ∨ 65535 < n) : tbInit n x = none := if_pos h

theorem tbArrive_some {x : TBar} (h : x.parr ≠ 0) : tbArrive x = some { x with parr := x.parr - 1 } := if_neg h

theorem tbArrive_none {x : TBar} (h : x.parr = 0) : tbArrive x = none := if_pos h

theorem tbExpect_some {n : Nat} {arv : Bool} {x : TBar} (h : ¬(2 ^ 31 ≤ x.psec + (n : Int) ∨ (arv = true ∧ x.parr = 0))) :
    tbExpect n arv x = some { x with psec := x.psec + n, parr := if arv then x.parr - 1 else x.parr } := if_neg h

theorem tbExpect_none {n : Nat} {arv : Bool} {x : TBar} (h : 2 ^ 31 ≤ x.psec + (n : Int) ∨ (arv = true ∧ x.parr = 0)) :
    tbExpect n arv x = none := if_pos h

theorem initial_fits {n : Nat} (h : n ≤ 65535) :
    TBar.Fits { phase := 0, ovf := false, err := false, parr := n, iarr := n, psec := 0 } :=
  ⟨(by decide : 0 < 16), Nat.lt_succ_of_le h, Nat.lt_succ_of_le h, (by decide : (-2 ^ 31 : Int) ≤ 0),
    (by decide : (0 : Int) < 2 ^ 31)⟩

/-- An arrival leaves every field in its range. -/
theorem arrive_fits {x : TBar} (h : x.Fits) : TBar.Fits { x with parr := x.parr - 1 } :=
  ⟨h.1, Nat.lt_of_le_of_lt (Nat.sub_le _ _) h.2.1, h.2.2⟩

/-- An expectation that does not overflow leaves every field in its range. -/
theorem expect_fits {x : TBar} {n : Nat} {arv : Bool} (h : x.Fits) (hn : x.psec + (n : Int) < 2 ^ 31) :
    TBar.Fits { x with psec := x.psec + n, parr := if arv then x.parr - 1 else x.parr } := by
  obtain ⟨h1, h2, h3, h4, -⟩ := h
  refine ⟨h1, ?_, h3, ?_, hn⟩
  · show (if arv then x.parr - 1 else x.parr) < 65536
    split <;> omega
  · show -2 ^ 31 ≤ x.psec + (n : Int)
    omega

theorem barAt_congr {s t : State} (h : t.mem = s.mem) (c off : Nat) : barAt t c off = barAt s c off := natAt_congr h _ _

/-- What a barrier's update leaves of memory depends on memory alone. -/
theorem barWritten_congr {s t u : State} {c off : Nat} (h : t.mem = u.mem) (w : BarWritten s u c off) :
    BarWritten s t c off := by
  obtain ⟨hb, hr⟩ := w
  refine ⟨fun a ha => (State.byteAt_congr h a).trans (hb a ha), ?_⟩
  rwa [barAt_congr h]

section tbWrite
variable (s : State) (c off : Nat) (b : TBar)
@[simp] theorem tbWrite_agent : (tbWrite s c off b).agent = s.agent := by rw [tbWrite_only]
@[simp] theorem tbWrite_harts : (tbWrite s c off b).harts = s.harts := by rw [tbWrite_only]
@[simp] theorem tbWrite_cores : (tbWrite s c off b).cores = s.cores := by rw [tbWrite_only]
@[simp] theorem tbWrite_ctxs : (tbWrite s c off b).ctxs = s.ctxs := by rw [tbWrite_only]
@[simp] theorem tbWrite_hart (k : Nat) : (tbWrite s c off b).hart k = s.hart k := by simp [State.hart]
@[simp] theorem tbWrite_core (k : Nat) : (tbWrite s c off b).core k = s.core k := by simp [State.core]
@[simp] theorem tbWrite_ctx (k : Nat) : (tbWrite s c off b).ctx k = s.ctx k := by simp [State.ctx]
end tbWrite

/-- The frame of an update: with memory and poison as they were, the state is as it was. -/
theorem tbWrite_frame (s : State) (c off : Nat) (b : TBar) :
    { tbWrite s c off b with mem := s.mem, poison := s.poison, lost := s.lost } = s := by
  rw [tbWrite_only]

/-- A barrier that expects an arrival stands as TBINIT leaves it: its completion check finds nothing (R261). -/
theorem barIs_of_initial {o n : Nat} (h : 1 ≤ n)
    (hb : HoldsChecked o { phase := 0, ovf := false, err := false, parr := n, iarr := n, psec := 0 }) :
    BarIs o 0 0 0 n n 0 := by
  unfold HoldsChecked BarChecked at hb
  rwa [if_neg (fun e => Nat.ne_of_gt h e.1)] at hb

/-! Barriers in a hart. -/

/-- A hart with nothing under way is ready for a barrier instruction. -/
theorem barReady_hart {s : State} {h : Nat} (ha : s.agent = .hart h) (hq : (s.hart h).vq = []) (hp : NoPosted s h)
    (hc : (s.hart h).colPend = 0) : BarReady s where
  trapsNow := by simp [trapWaits, ha, hq]
  released arv := by cases arv <;> simp [tbRelease, ha, run_needAll ha hp hq hc]
  faultless arv o := by simp [unlessFaulted, ha]

/-- A hart's barrier instruction that does not overflow updates its object and completes (R261, R305). -/
theorem hart_updates {s : State} {h : Nat} {i : Instr} {off : Nat} {f : TBar → Option TBar} {b : TBar}
    (ha : s.agent = .hart h) (hu : Updates s i off f) (hf : f (tbGet (barAt s (h / 8) off)) = some b) (hb : b.Fits) :
    ∃ t, exec i s = .next t ∧ BarUpdated s t h off ∧ HoldsChecked (barAt t (h / 8) off) b := by
  have hcore : agentCore s = h / 8 := by simp [agentCore, ha, coreOf]
  rw [← hcore] at hf ⊢
  have he := hu.completes hf
  generalize hw : tbWrite s (agentCore s) off b.check = u at he
  have hua : u.agent = .hart h := by rw [← hw, tbWrite_agent, ha]
  have huh : ∀ k, u.hart k = s.hart k := fun k => by rw [← hw, tbWrite_hart]
  have hum : (advance u false).mem = u.mem := advance_hart_mem hua
  obtain ⟨hpast, hregs⟩ := advance_hart_past hua
  obtain ⟨-, hothers⟩ := advance_hart_onlyHart hua
  rw [huh] at hpast hregs
  refine ⟨_, he, ⟨?_, ?_, fun k hk => (hothers k hk).trans (huh k), hpast, hregs⟩, ?_⟩
  · rw [← hcore]
    exact barWritten_congr hum (hw ▸ barWritten_tbWrite s _ _ (TBar.check_fits hb))
  · rw [advance_hart hua]
    exact State.modHart_stored_frame h _ (hw ▸ tbWrite_frame s _ _ _)
  · rw [barAt_congr hum, ← hw]
    exact holdsChecked_tbWrite s _ _ hb

/-- The transaction barriers of a hart (R261, R304 to R306). -/
theorem transactionBarriers : TransactionBarriers := by
  intro s h a b ha hq hp hc y off o n ho
  have hready := barReady_hart ha hq hp hc
  have hregs : agentRegs s = y.s := by simp [agentRegs, ha, y]
  have hcore : agentCore s = h / 8 := by simp [agentCore, ha, coreOf]
  have ho' : barOk s (rdS (agentRegs s) a.val).toNat := by rw [hregs]; exact ho
  have hinit := updates_tbinit (b := b) ho' hready
  have harrive := updates_tbarrive ho' hready
  have hexpect := updates_tbexpect (b := b) ho' hready
  have hwait := exec_tbwait_of_phase_ne (b := b) ho'
  rw [hregs] at hinit harrive hwait
  rw [hcore] at hwait
  simp only [hregs] at hexpect
  refine ⟨fun h1 h2 => ?_, ?_⟩
  · obtain ⟨t, he, hup, hck⟩ := hart_updates ha hinit (tbInit_some _ h1 h2) (initial_fits h2)
    exact ⟨t, he, hup, barIs_of_initial h1 hck⟩
  · intro ph ov er pa ia ps his
    obtain ⟨rfl, rfl, rfl, rfl, rfl, rfl⟩ := barIs_iff.mp his
    refine ⟨fun h1 => ?_, fun arv h1 h2 => ?_, fun h1 => ?_⟩
    · exact hart_updates ha harrive (tbArrive_some (Nat.ne_of_gt h1)) (arrive_fits (tbGet_fits _))
    · refine hart_updates ha (hexpect arv) (tbExpect_some ?_) (expect_fits (tbGet_fits _) h1)
      rintro (h | ⟨h, h'⟩)
      · exact absurd h (Int.not_le.mpr h1)
      · exact absurd h' (Nat.ne_of_gt (h2 h))
    · obtain ⟨hpast, hsame⟩ := advance_hart_past ha
      exact ⟨_, hwait h1, advance_hart_onlyHart ha, hpast, hsame⟩

@[simp] theorem overflowed_hart (s : State) (c off k : Nat) : (overflowed s c off).hart k = s.hart k := tbWrite_hart ..
@[simp] theorem overflowed_ctx (s : State) (c off k : Nat) : (overflowed s c off).ctx k = s.ctx k := tbWrite_ctx ..
@[simp] theorem overflowed_agent (s : State) (c off : Nat) : (overflowed s c off).agent = s.agent := tbWrite_agent ..

/-- The handler of a trap depends on the hart and its context. -/
theorem handlerOf_overflowed (s : State) (c off h code : Nat) : handlerOf (overflowed s c off) h code = handlerOf s h code := by
  simp [handlerOf]

/-- A hart's barrier instruction that overflows sets OVF alone and takes the barrier-overflow trap (R261, R305). -/
theorem hart_overflows {s : State} {h : Nat} {i : Instr} {off : W} {f : TBar → Option TBar}
    (ha : s.agent = .hart h) (hq : (s.hart h).vq = []) (hc : CanTrap s h 0x09) (hu : Updates s i off.toNat f)
    (hf : f (tbGet (barAt s (h / 8) off.toNat)) = none) :
    ∃ t, exec i s = .next t ∧ (t.hart h).pc = handlerOf s h 0x09 ∧ (t.hart h).tcause = 0x09 ∧
      (t.hart h).tval = off ∧ (t.hart h).tepc = wd (fld (s.hart h).pc 0 57) ∧ SameRegs (s.hart h) (t.hart h) ∧
      (∀ k, k ≠ h → t.hart k = s.hart k) ∧
      barAt t (h / 8) off.toNat = barAt s (h / 8) off.toNat - barAt s (h / 8) off.toNat / 16 % 2 * 16 + 16 ∧
      ∀ q, (q < spadAddr (h / 8) off.toNat ∨ spadAddr (h / 8) off.toNat + 16 ≤ q) → t.byteAt q = s.byteAt q := by
  have hcore : agentCore s = h / 8 := by simp [agentCore, ha, coreOf]
  rw [← hcore] at hf
  have he := hu.overflows hf
  rw [hcore] at he
  have hw := barWritten_tbWrite s (h / 8) off.toNat (setOvf_fits (barAt s (h / 8) off.toNat))
  have hb := barAt_overflowed s (h / 8) off.toNat
  have hh : ∀ k, (overflowed s (h / 8) off.toNat).hart k = s.hart k := overflowed_hart s _ _
  have hv := handlerOf_overflowed s (h / 8) off.toNat h 0x09
  have hua : (overflowed s (h / 8) off.toNat).agent = .hart h := (overflowed_agent ..).trans ha
  change BarWritten s (overflowed s (h / 8) off.toNat) _ _ at hw
  generalize overflowed s (h / 8) off.toNat = u at he hw hb hh hv hua
  have hcu : CanTrap u h 0x09 := by simpa only [CanTrap, hv, hh] using hc
  have hoff : wd off.toNat = off := by simp [wd]
  rw [raise_scalar hua (by rw [hh, hq]), hoff, show cBARRIER = 0x09 from rfl, takeTrap_of_canTrap hcu, hh, hv] at he
  refine ⟨_, he, ?_⟩
  rw [State.hart_setHart_same]
  refine ⟨rfl, rfl, rfl, rfl, fun _ => rfl, fun k hk => ?_, ?_, fun q hq => ?_⟩
  · rw [State.hart_setHart_ne _ _ hk, hh]
  · rw [barAt_congr (State.setHart_mem ..), hb]
  · rw [State.byteAt_congr (State.setHart_mem ..)]
    exact hw.1 q hq

/-- The barrier-overflow trap of a hart (R261, R305). -/
theorem barrierOverflowTraps : BarrierOverflowTraps := by
  intro s h a b arv ha hq hp hc hct y off o n overV ho
  have hready := barReady_hart ha hq hp hc
  have hregs : agentRegs s = y.s := by simp [agentRegs, ha, y]
  have ho' : barOk s (rdS (agentRegs s) a.val).toNat := by rw [hregs]; exact ho
  have hinit := updates_tbinit (b := b) ho' hready
  have harrive := updates_tbarrive ho' hready
  have hexpect := updates_tbexpect (b := b) ho' hready arv
  rw [hregs] at hinit harrive hexpect
  exact ⟨fun h0 => hart_overflows ha hq hct hinit (tbInit_none _ h0),
    fun h0 => hart_overflows ha hq hct harrive (tbArrive_none h0),
    fun h0 => hart_overflows ha hq hct hexpect (tbExpect_none (by rwa [tbGet, sInt_mod]))⟩

/-! Barriers in a sequencer. -/

theorem seqAgent_true (c : Nat) : seqAgent true c = .mseq c := rfl
theorem seqAgent_false (c : Nat) : seqAgent false c = .cseq c := rfl

/-- A sequencer whose instruction is over stands at the next one (R288). -/
def Seq.past (q : Seq) : Seq := { q with pc := nextPC q.pc q.nh, tidx := 0 }

/-- A sequencer goes past a completed instruction. -/
theorem advance_seq {s : State} {m : Bool} {c : Nat} (ha : s.agent = seqAgent m c) :
    advance s false = s.modCore c (fun k => k.modSeq m Seq.past) := by
  cases m <;> simp only [seqAgent_true, seqAgent_false] at ha <;> simp only [advance, ha] <;> rfl

/-- A change of one sequencer changes nothing else of the cores. -/
theorem seqBecomes_modSeq (s : State) (m : Bool) (c : Nat) (f : Seq → Seq) :
    SeqBecomes s (s.modCore c (fun k => k.modSeq m f)) m c (f ((s.core c).seq m)) := by
  refine ⟨?_, fun g hg => State.core_modCore_ne _ _ hg⟩
  rw [State.core_modCore_same]
  cases m <;> rfl

/-- What becomes of a sequencer depends on the cores alone. -/
theorem seqBecomes_congr {s s' t : State} {m : Bool} {c : Nat} {z : Seq} (h : ∀ g, s'.core g = s.core g)
    (hb : SeqBecomes s' t m c z) : SeqBecomes s t m c z := by
  simpa only [SeqBecomes, h] using hb

/-- An engine stop (R290). -/
theorem seqStopped_engineStop (s : State) (m : Bool) (c : Nat) {cause idx : Nat} (va : W) (hc : cause < 256)
    (hi : idx < 2 ^ 32) : SeqStopped s (engineStop s m c cause idx va) m c cause idx (some va) := by
  have hf : faultWord cause (if m then 0 else 1) idx = wd (cause * 2 ^ 40 + (if m then 0 else 1) * 2 ^ 38 + idx) := by
    rw [faultWord, Nat.mod_eq_of_lt hc, Nat.mod_eq_of_lt hi]
    cases m <;> rfl
  refine ⟨va, fun w hw => Option.some.inj hw, ?_, ?_, fun j hj => ?_, rfl⟩
  · rw [← hf]
    exact seqBecomes_modSeq s m c _
  · rw [← hf]
    exact tget_tput_same _ _ _ _
  · exact tget_tput_ne _ _ _ _ hj

/-- A precise trap of a sequencer's instruction stops it (R290). -/
theorem raise_seq {s : State} {m : Bool} {c : Nat} (ha : s.agent = seqAgent m c) (i : Instr) (code : Nat) (tval : W)
    (idx : Nat) : raise s i false code tval idx = engineStop s m c code idx (stopVa s code tval) := by
  cases m <;> simp only [seqAgent_true, seqAgent_false] at ha <;> simp only [raise, ha]

theorem agentCore_seq {s : State} {m : Bool} {c : Nat} (ha : s.agent = seqAgent m c) : agentCore s = c := by
  cases m <;> simp only [seqAgent_true, seqAgent_false] at ha <;> simp only [agentCore, ha]

theorem agentRegs_seq {s : State} {m : Bool} {c : Nat} (ha : s.agent = seqAgent m c) :
    agentRegs s = ((s.core c).seq m).s := by
  cases m <;> simp only [seqAgent_true, seqAgent_false] at ha <;> simp only [agentRegs, ha] <;> rfl

theorem seqCopies_eq_false {s : State} {c : Nat} (h : CopiesOver s c) : seqCopies s c = false := by
  simpa [seqCopies, CopiesOver] using h

/-- A sequencer whose copies are over is ready for a barrier instruction (R314). -/
theorem barReady_seq {s : State} {m : Bool} {c : Nat} (ha : s.agent = seqAgent m c) (hc : m = false → CopiesOver s c) :
    BarReady s := by
  cases m <;> simp only [seqAgent_true, seqAgent_false] at ha
  · have h := seqCopies_eq_false (hc rfl)
    refine ⟨?_, fun arv => ?_, fun arv o => ?_⟩
    · simp [trapWaits, ha]
    · simp [tbRelease, ha, h]
    · simp only [unlessFaulted, ha, h, Bool.and_false]
      split <;> simp
  · refine ⟨?_, fun arv => ?_, fun arv o => ?_⟩
    · simp [trapWaits, ha]
    · simp [tbRelease, ha]
    · simp [unlessFaulted, ha]

/-- A sequencer's barrier instruction that does not overflow updates its object and completes (R261, R305). -/
theorem seq_updates {s : State} {m : Bool} {c : Nat} {i : Instr} {off : Nat} {f : TBar → Option TBar} {b : TBar}
    (ha : s.agent = seqAgent m c) (hu : Updates s i off f) (hf : f (tbGet (barAt s c off)) = some b) (hb : b.Fits) :
    ∃ t, exec i s = .next t ∧ BarWritten s t c off ∧ HoldsChecked (barAt t c off) b ∧
      SeqBecomes s t m c ((s.core c).seq m).past ∧
      { t with cores := s.cores, mem := s.mem, poison := s.poison, lost := s.lost } = s := by
  have hcore := agentCore_seq ha
  rw [← hcore] at hf
  have he := hu.completes hf
  rw [hcore] at he
  have hw := barWritten_tbWrite s c off (TBar.check_fits hb)
  have hk := holdsChecked_tbWrite s c off hb
  have hfr := tbWrite_frame s c off b.check
  have hcs : ∀ g, (tbWrite s c off b.check).core g = s.core g := tbWrite_core s c off _
  have hua : (tbWrite s c off b.check).agent = seqAgent m c := (tbWrite_agent ..).trans ha
  generalize tbWrite s c off b.check = u at he hw hk hfr hcs hua
  have hz := seqBecomes_congr hcs (seqBecomes_modSeq u m c Seq.past)
  rw [advance_seq hua] at he
  refine ⟨_, he, barWritten_congr (State.modCore_mem ..) hw, ?_, ?_, ?_⟩
  · rwa [barAt_congr (State.modCore_mem ..)]
  · rwa [hcs] at hz
  · exact State.modCore_stored_frame c _ hfr

/-- A sequencer's barrier instruction that overflows sets OVF alone and stops the sequencer (R261, R288, R305). -/
theorem seq_overflows {s : State} {m : Bool} {c : Nat} {i : Instr} {off : Nat} {f : TBar → Option TBar}
    (ha : s.agent = seqAgent m c) (hu : Updates s i off f) (hf : f (tbGet (barAt s c off)) = none) :
    ∃ u t, exec i s = .next t ∧ BarWritten s u c off ∧ barAt u c off = barAt s c off - barAt s c off / 16 % 2 * 16 + 16 ∧
      { u with mem := s.mem, poison := s.poison, lost := s.lost } = s ∧ SeqStopped u t m c 0x09 0 (some (wd off)) := by
  have hcore := agentCore_seq ha
  rw [← hcore] at hf
  have he := hu.overflows hf
  have hua : (overflowed s c off).agent = seqAgent m c := (overflowed_agent ..).trans ha
  rw [hcore, raise_seq hua] at he
  exact ⟨_, _, he, barWritten_tbWrite s c off (setOvf_fits _), barAt_overflowed s c off, tbWrite_frame s c off _,
    seqStopped_engineStop _ m c (wd off) (by decide) (by decide)⟩

/-- The transaction barriers of a sequencer (R288, R304 to R306, R314). -/
theorem sequencerBarriers : SequencerBarriers := by
  intro s m c a b ha hc q off o n past updated overflows ho
  have hready := barReady_seq ha hc
  have hregs : agentRegs s = q.s := agentRegs_seq ha
  have hcore := agentCore_seq ha
  have ho' : barOk s (rdS (agentRegs s) a.val).toNat := by rw [hregs]; exact ho
  have hinit := updates_tbinit (b := b) ho' hready
  have harrive := updates_tbarrive ho' hready
  have hexpect := updates_tbexpect (b := b) ho' hready
  have hwait := exec_tbwait_of_phase_ne (b := b) ho'
  have hstay := exec_tbwait_of_phase_eq (b := b) ho'
  rw [hregs] at hinit harrive hwait hstay
  rw [hcore] at hwait hstay
  simp only [hregs] at hexpect
  refine ⟨?_, fun ph ov er pa ia ps his => ?_⟩
  · split <;> rename_i h
    · exact seq_overflows ha hinit (tbInit_none _ h)
    · obtain ⟨t, he, hw, hk, hz⟩ := seq_updates ha hinit (tbInit_some _ (by omega) (by omega)) (initial_fits (by omega))
      exact ⟨t, he, hw, barIs_of_initial (by omega) hk, hz⟩
  · obtain ⟨rfl, rfl, rfl, rfl, rfl, rfl⟩ := barIs_iff.mp his
    refine ⟨?_, fun arv => ?_, fun h => ?_, fun h => ?_⟩
    · split <;> rename_i h
      · exact seq_overflows ha harrive (tbArrive_none h)
      · exact seq_updates ha harrive (tbArrive_some h) (arrive_fits (tbGet_fits _))
    · split <;> rename_i h
      · exact seq_overflows ha (hexpect arv) (tbExpect_none h)
      · exact seq_updates ha (hexpect arv) (tbExpect_some h)
          (expect_fits (tbGet_fits _) (Int.not_le.mp fun h' => h (.inl h')))
    · refine ⟨_, hwait h, ?_⟩
      rw [advance_seq ha]
      exact ⟨seqBecomes_modSeq s m c Seq.past, s.modCore_frame c _⟩
    · exact hstay h

end Sys2Proof.Machine
end

section
/-! The barriers of the harts of a crew and of a band (R309), and the statement on barriers. -/
namespace Sys2Proof.Machine
open Sys2Proof.Obl

/-- The body that CBAR and BBAR share: the hart arrives, and passes once all of its group have arrived (R309). -/
def barrierBody (group : State → Nat → List Nat) (count : Hart → Nat) (arrive pass : Hart → Hart) : X Unit := do
  needAll
  onMe arrive
  let t ← get
  let h ← me
  let x ← myHart
  if (group t h).all (arrived t x.band count (count x)) then onMe pass else stall

/-- The hart arrives at a CBAR. -/
def Hart.arriveCbar (x : Hart) : Hart := if x.ncbar = x.cpass then { x with ncbar := x.ncbar + 1 } else x
/-- The hart arrives at a BBAR. -/
def Hart.arriveBbar (x : Hart) : Hart := if x.nbbar = x.bpass then { x with nbbar := x.nbbar + 1 } else x
/-- The hart passes the CBAR at which it has arrived. -/
def Hart.passCbar (x : Hart) : Hart := { x with cpass := x.ncbar }
/-- The hart passes the BBAR at which it has arrived. -/
def Hart.passBbar (x : Hart) : Hart := { x with bpass := x.nbbar }

/-- CBAR is the barrier of the crew. -/
theorem exec_cbar (s : State) :
    exec .cbar s = scalarX .cbar (barrierBody crewHarts (·.ncbar) Hart.arriveCbar Hart.passCbar) s := rfl
/-- BBAR is the barrier of the band. -/
theorem exec_bbar (s : State) :
    exec .bbar s = scalarX .bbar (barrierBody bandHarts (·.nbbar) Hart.arriveBbar Hart.passBbar) s := rfl

theorem Hart.arriveCbar_eq (x : Hart) :
    x.arriveCbar = { x with ncbar := if x.ncbar = x.cpass then x.ncbar + 1 else x.ncbar } := by
  unfold Hart.arriveCbar
  split <;> rfl

theorem Hart.arriveBbar_eq (x : Hart) :
    x.arriveBbar = { x with nbbar := if x.nbbar = x.bpass then x.nbbar + 1 else x.nbbar } := by
  unfold Hart.arriveBbar
  split <;> rfl

/-- The crew of a hart depends on the bands and on its own band. -/
theorem crewHarts_modHart (s : State) (h : Nat) {f : Hart → Hart} (hf : (f (s.hart h)).band = (s.hart h).band) :
    crewHarts (s.modHart h f) h = crewHarts s h := by
  rw [crewHarts, State.hart_modHart_same, hf]
  rfl

/-- The harts of a hart's band depend on the bands and on its own band. -/
theorem bandHarts_modHart (s : State) (h : Nat) {f : Hart → Hart} (hf : (f (s.hart h)).band = (s.hart h).band) :
    bandHarts (s.modHart h f) h = bandHarts s h := by
  rw [bandHarts, State.hart_modHart_same, hf]
  rfl

/-- A hart has arrived, unless it lives in the band and has arrived less often. -/
theorem arrived_of {s : State} {bi n k : Nat} {count : Hart → Nat}
    (h : (s.hart k).live = true → (s.hart k).band = bi → n ≤ count (s.hart k)) : arrived s bi count n k = true := by
  by_cases hl : (s.hart k).live = true ∧ (s.hart k).band = bi
  · simp [arrived, hl, h hl.1 hl.2]
  · simp only [not_and] at hl
    simp only [arrived, Bool.or_eq_true, Bool.not_eq_true', Bool.and_eq_false_iff]
    left
    cases hv : (s.hart k).live
    · exact .inl rfl
    · exact .inr (by simpa using hl hv)

/-- A hart that arrives last passes: it has arrived, has passed, and is at its next instruction (R309). -/
theorem barrier_passes {s : State} {h : Nat} {i : Instr} {group : State → Nat → List Nat} {count : Hart → Nat}
    {arrive pass : Hart → Hart} (ha : s.agent = .hart h) (hq : (s.hart h).vq = []) (hp : NoPosted s h)
    (hc : (s.hart h).colPend = 0)
    (hx : exec i s = scalarX i (barrierBody group count arrive pass) s)
    (hg : group (s.modHart h arrive) h = group s h) (hb : (arrive (s.hart h)).band = (s.hart h).band)
    (hall : ∀ k ∈ group s h, k ≠ h → (s.hart k).live = true → (s.hart k).band = (s.hart h).band →
      count (arrive (s.hart h)) ≤ count (s.hart k)) :
    ∃ t, exec i s = .next t ∧ OnlyHart s t h ∧ t.hart h = { pass (arrive (s.hart h)) with
      pc := nextPC (pass (arrive (s.hart h))).pc (pass (arrive (s.hart h))).nh, wait := none, retiredAt := s.clock } := by
  have hagent : agentHart s = h := by simp [agentHart, ha]
  have hagent' : agentHart (s.modHart h arrive) = h := hagent
  have harr : (group (s.modHart h arrive) h).all
      (arrived (s.modHart h arrive) (s.hart h).band count (count (arrive (s.hart h)))) = true := by
    rw [hg, List.all_eq_true]
    intro k hk
    refine arrived_of fun hl hb => ?_
    by_cases e : k = h
    · subst e
      exact Nat.le_of_eq (congrArg count (State.hart_modHart_same s k arrive).symm)
    · rw [State.hart_modHart_ne _ _ e] at hl hb ⊢
      exact hall k hk e hl hb
  have hrun : (barrierBody group count arrive pass).run s = .ok () ((s.modHart h arrive).modHart h pass) := by
    rw [barrierBody, run_bind_ok (run_needAll ha hp hq hc), run_bind_ok (run_onMe arrive s), hagent, run_get_bind,
      run_bind_ok (run_me _), run_bind_ok (run_myHart _), hagent', State.hart_modHart_same, hb, if_pos harr, run_onMe, hagent']
  have ha' : ((s.modHart h arrive).modHart h pass).agent = .hart h := ha
  refine ⟨_, hx.trans (scalarX_ok ha hrun), ?_, ?_⟩ <;> rw [advance_hart ha']
  · exact onlyHart_modHart (onlyHart_modHart (onlyHart_modHart (onlyHart_refl s h) _) _) _
  · simp only [State.hart_modHart_same]
    rfl

/-- The barriers of a crew and of a band (R309). -/
theorem hartBarriers : HartBarriers := by
  intro s h n ha hq hp hc x
  refine ⟨fun hn hall => ?_, fun hn hall => ?_⟩
  · obtain ⟨t, he, ho, ht⟩ := barrier_passes ha hq hp hc (exec_cbar s) (crewHarts_modHart s h (by rw [Hart.arriveCbar_eq]))
      (by rw [Hart.arriveCbar_eq]) (fun k hk hkh hl hb => by rw [Hart.arriveCbar_eq]; exact hn ▸ hall k hk hkh hl hb)
    rw [Hart.arriveCbar_eq, Hart.passCbar] at ht
    refine ⟨t, he, ho, ?_⟩
    rw [ht]
    exact ⟨fun _ => rfl, rfl, hn.symm, hn.symm, rfl⟩
  · obtain ⟨t, he, ho, ht⟩ := barrier_passes ha hq hp hc (exec_bbar s) (bandHarts_modHart s h (by rw [Hart.arriveBbar_eq]))
      (by rw [Hart.arriveBbar_eq]) (fun k hk hkh hl hb => by rw [Hart.arriveBbar_eq]; exact hn ▸ hall k hk hkh hl hb)
    rw [Hart.arriveBbar_eq, Hart.passBbar] at ht
    refine ⟨t, he, ho, ?_⟩
    rw [ht]
    exact ⟨fun _ => rfl, rfl, hn.symm, hn.symm, rfl⟩

end Sys2Proof.Machine

open Sys2Proof Sys2Proof.Machine in
/-- Settles O60: every transaction barrier instruction comes to one update of its object, which either writes the new fields
after the completion check or sets OVF alone; what the agent does then is said once for harts and once for sequencers. CBAR
and BBAR share one body. -/
theorem barriers : Obligations.Barriers :=
  ⟨transactionBarriers, barrierOverflowTraps, sequencerBarriers, hartBarriers⟩
end

section
/-! Entries of a table; caching a translation (R179), and what it leaves as it was. -/
namespace Sys2Proof.Machine
open Sys2Proof.Obl

/-- An entry of a table after a write is the one written or one that the table held. -/
theorem mem_tins {α : Type} {t : Tab α} {k : Nat} {v : α} {e : Nat × α} (h : e ∈ tins t k v) : e = (k, v) ∨ e ∈ t := by
  induction t with
  | nil => exact .inl (by simpa [tins] using h)
  | cons d r ih =>
    unfold tins at h
    split at h
    · exact List.mem_cons.mp h
    · rcases List.mem_cons.mp h with rfl | h
      · exact .inr (by simp)
      · exact (ih h).imp_right (List.mem_cons_of_mem _)

theorem mem_of_mem_tdel {α : Type} {t : Tab α} {k : Nat} {e : Nat × α} (h : e ∈ tdel t k) : e ∈ t := by
  induction t with
  | nil => exact h
  | cons d r ih =>
    unfold tdel at h
    split at h
    · exact List.mem_cons_of_mem _ (ih h)
    · rcases List.mem_cons.mp h with rfl | h
      · simp
      · exact List.mem_cons_of_mem _ (ih h)

theorem mem_tput {α : Type} [DecidableEq α] {d : α} {t : Tab α} {k : Nat} {v : α} {e : Nat × α} (h : e ∈ tput d t k v) :
    e = (k, v) ∨ e ∈ t := by
  unfold tput at h
  split at h
  · exact .inr (mem_of_mem_tdel h)
  · exact (mem_tins h).imp_right mem_of_mem_tdel

/-- What a table holds under a key is its default or stands in an entry. -/
theorem tget_eq_or_mem {α : Type} (d : α) (t : Tab α) (k : Nat) : tget d t k = d ∨ (k, tget d t k) ∈ t := by
  induction t with
  | nil => exact .inl rfl
  | cons e r ih =>
    unfold tget
    split
    · rename_i h
      exact .inr (by simp [← h])
    · exact ih.imp_right (List.mem_cons_of_mem _)

/-! Caching a translation changes nothing but the table of contexts; the rules of an access that read no context. -/

theorem gapLines_ctxs (s : State) (c : Tab Context) (acc : Acc) (p : Place) (n : Nat) :
    gapLines { s with ctxs := c } acc p n = gapLines s acc p n := rfl

theorem linkShut_ctxs (s : State) (c : Tab Context) (l vc : Nat) : linkShut { s with ctxs := c } l vc = linkShut s l vc := rfl

theorem tripFrom_ctxs (s : State) (c : Tab Context) (vc fuel r hops turns : Nat) (came : Option Nat) :
    tripFrom { s with ctxs := c } vc fuel r hops turns came = tripFrom s vc fuel r hops turns came := by
  induction fuel generalizing r hops turns came with
  | zero => rfl
  | succ fuel ih => simp only [tripFrom, ih, linkShut_ctxs]

theorem trip_ctxs (s : State) (c : Tab Context) (src dst vc : Nat) :
    trip { s with ctxs := c } src dst vc = trip s src dst vc := by
  unfold trip tripBy
  simp only [tripFrom_ctxs]
  rfl

theorem overtakes_ctxs (s : State) (c : Tab Context) (src dst vc : Nat) :
    overtakes { s with ctxs := c } src dst vc = overtakes s src dst vc := rfl

theorem reach_ctxs (s : State) (c : Tab Context) (src dst : Nat) : reach { s with ctxs := c } src dst = reach s src dst := by
  unfold reach reachOn
  simp only [trip_ctxs, overtakes_ctxs]

theorem sptHeld_ctxs (s : State) (c : Tab Context) (via : Via) (k : AKind) :
    sptHeld { s with ctxs := c } via k = sptHeld s via k := rfl

theorem homeHeld_ctxs (s : State) (c : Tab Context) (who : Nat) (acc : Acc) {p : Place} (n : Nat) (hp : ∀ a, p ≠ .ext a) :
    homeHeld { s with ctxs := c } who acc p n = homeHeld s who acc p n := by
  cases p with
  | ext a => exact absurd rfl (hp a)
  | _ => rfl

theorem pieceHeld_ctxs (s : State) (c : Tab Context) (r : Rq) (via : Via) (k : AKind) {q : Piece} (hp : ∀ a, q.p ≠ .ext a) :
    pieceHeld { s with ctxs := c } r via k q = pieceHeld s r via k q := by
  unfold pieceHeld
  rw [homeHeld_ctxs s c r.who q.acc q.n hp]
  rfl

theorem homeFor_ctxs (s : State) (c : Tab Context) {acc : Acc} (p : Place) (w : Bool) (hu : acc.ub = false) :
    homeFor { s with ctxs := c } acc p w = homeFor s acc p w := by
  unfold homeFor
  rw [hu]
  rfl

theorem tlbFill_eq (s : State) (cid : Nat) (e : Option TlbE) :
    tlbFill s cid e = { s with ctxs := (tlbFill s cid e).ctxs } := by
  unfold tlbFill
  cases e <;> rfl

/-- A stack that caches a translation changes nothing else of a context (R179). -/
theorem tlbFill_ctx (s : State) (cid : Nat) (e : Option TlbE) (c : Nat) :
    { (tlbFill s cid e).ctx c with tlb := (s.ctx c).tlb } = s.ctx c := by
  unfold tlbFill
  cases e with
  | none => rfl
  | some e =>
    by_cases h : c = cid
    · subst h
      simp
    · simp [h]

end Sys2Proof.Machine
end

section
/-! A scalar access to a place of a scratchpad or of backed DRAM that nothing holds back: it translates and is served (R155). -/
namespace Sys2Proof.Machine
open Sys2Proof.Obl

/-- The unbacked lines of a set are none where no context has one there. -/
theorem setLines_eq_nil {s : State} {st la : Nat} : setLines s st la = [] ↔
    ∀ e ∈ s.ctxs, ∀ u ∈ e.2.ubLines, ¬(u.2 = .cache ∧ e.2.curStack (u.1 * 128) = st ∧
      sliceOf (u.1 * 128) = sliceOf (la * 128) ∧ setOf (u.1 * 128) = setOf (la * 128)) := by
  simp [setLines, List.flatMap_eq_nil_iff, List.filter_eq_nil_iff]

theorem setLines_tlbFill {s : State} (cid : Nat) (e : Option TlbE) {st la : Nat} (h : setLines s st la = []) :
    setLines (tlbFill s cid e) st la = [] := by
  rw [setLines_eq_nil] at h ⊢
  cases e with
  | none => exact h
  | some e =>
    intro x hx u hu
    rcases mem_tput hx with rfl | hx
    · rcases tget_eq_or_mem Context.reset s.ctxs cid with hr | hm
      · rw [show (s.ctx cid) = Context.reset from hr] at hu
        cases hu
      · exact h _ hm u hu
    · exact h x hx u hu

/-- An access of a set with room and no unbacked line drives nothing out (R25, R366). -/
theorem conflictUb_free {s : State} {st la : Nat} (cid : Nat) (h1 : setLines s st la = [])
    (h2 : (setHosts s st la).length < ways s.sdp) : conflictUb s st la none cid = .ok s := by
  have hb := b01_lt ((none : Option (Nat × Nat)).isNone && !(setHosts s st la).contains (16 * la + st))
  unfold conflictUb
  rw [h1, if_pos (by simp only [List.length_nil]; omega)]
  rfl

theorem run_conflictX_free {s : State} {st la : Nat} (cid : Nat) (h1 : setLines s st la = [])
    (h2 : (setHosts s st la).length < ways s.sdp) : (conflictX st la none cid).run s = .ok () s := by
  unfold conflictX
  rw [run_get_bind, conflictUb_free cid h1 h2]
  rfl

/-- A loop whose every round leaves the state as it is. -/
theorem run_eachOf_same {α : Type} {f : α → X Unit} {l : List α} {s : State} (h : ∀ a ∈ l, (f a).run s = .ok () s) :
    (eachOf f l).run s = .ok () s := by
  induction l with
  | nil => rfl
  | cons a r ih =>
    rw [eachOf, run_bind_ok (h a (by simp))]
    exact ih fun b hb => h b (by simp [hb])

/-- An access of kind `k` to `n` bytes at `va` translates to a place of a scratchpad or of backed DRAM outside lattice regions,
and nothing holds it back there (R155). -/
structure FreeRange (s : State) (r : Rq) (via : Via) (k : AKind) (va : W) (n : Nat) (acc : Acc) (p : Place)
    (e : Option TlbE) : Prop where
  resolved : resolve s r via k va n = (.ok (acc, p), e)
  backed : acc.ub = false
  plain : acc.lt = 0
  free : FreeAccess s r via k va n acc p
  inside : ∀ a, p ≠ .ext a

section
variable {s : State} {r : Rq} {via : Via} {k : AKind} {va : W} {n : Nat} {acc : Acc} {p : Place} {e : Option TlbE}
  (h : FreeRange s r via k va n acc p e)
include h

theorem run_resolveAll_free (al : Nat) (u : UnitRule) :
    (resolveAll r via k [{ va := va, n := n, al := al, u := u }]).run s =
      .ok [{ va := va, n := n, acc := acc, p := p }] (tlbFill s r.cid e) := by
  unfold resolveAll
  rw [run_get_bind]
  simp only [List.map_cons, List.map_nil, h.resolved]
  rfl

theorem run_checkWants_free {al : Nat} (hal : va.toNat % al = 0) (u : UnitRule) :
    (checkWants r via k [{ va := va, n := n, al := al, u := u }]).run s =
      .ok [{ va := va, n := n, acc := acc, p := p }] (tlbFill s r.cid e) := by
  have hc : (alignCheck k { va := va, n := n, al := al, u := u } { va := va, n := n, acc := acc, p := p }).run
      (tlbFill s r.cid e) = .ok () (tlbFill s r.cid e) := by
    unfold alignCheck
    simp [hal, UnitRule.ok, h.plain]
  unfold checkWants
  rw [run_bind_ok (run_resolveAll_free h al u), run_bind_ok (run_eachOf_same (by simpa using hc))]
  rfl

theorem piecesHeld_free : piecesHeld (tlbFill s r.cid e) r via k [{ va := va, n := n, acc := acc, p := p }] = false := by
  obtain ⟨h1, h2, -⟩ := h.free
  rw [tlbFill_eq]
  unfold piecesHeld
  rw [sptHeld_ctxs, h1, List.any_cons, pieceHeld_ctxs s _ r via k h.inside, h2]
  rfl

theorem run_touchPiece_free : (touchPiece r { va := va, n := n, acc := acc, p := p }).run (tlbFill s r.cid e) =
    .ok () (tlbFill s r.cid e) := by
  obtain ⟨-, -, hg, hl⟩ := h.free
  have hg' : takeGaps (tlbFill s r.cid e) r.who acc p n = tlbFill s r.cid e := by
    unfold takeGaps
    rw [show gapLines (tlbFill s r.cid e) acc p n = gapLines s acc p n by rw [tlbFill_eq, gapLines_ctxs], hg]
    rfl
  unfold touchPiece
  rw [run_bind_ok (run_modify _ _)]
  simp only [hg']
  rw [run_get_bind, if_neg (by simp [h.backed])]
  cases p with
  | ext a => exact absurd rfl (h.inside a)
  | dram lin w =>
    have hh : homeStack (tlbFill s r.cid e) acc (.dram lin w) = homeStack s acc (.dram lin w) := by
      rw [tlbFill_eq]
      exact homeFor_ctxs s _ _ _ h.backed
    refine run_eachOf_same fun l hm => ?_
    obtain ⟨hnone, hroom⟩ := hl lin w rfl l hm
    rw [hh]
    refine run_conflictX_free _ (setLines_tlbFill _ _ hnone) ?_
    rw [tlbFill_eq]
    exact hroom
  | _ => rfl

theorem run_access_free {al : Nat} (hal : va.toNat % al = 0) (u : UnitRule) :
    (access r via k u al va n).run s = .ok (acc, p) (tlbFill s r.cid e) := by
  have hroom : roomUb (tlbFill s r.cid e) r.cid [{ va := va, n := n, acc := acc, p := p }] [] = none := by
    simp [roomUb, h.backed]
  have hserve : (servePieces r [{ va := va, n := n, acc := acc, p := p }]).run (tlbFill s r.cid e) =
      .ok () (tlbFill s r.cid e) := by
    unfold servePieces
    rw [run_get_bind, hroom]
    exact run_eachOf_same (by simpa using run_touchPiece_free h)
  have hw : (accessWants r via k [{ va := va, n := n, al := al, u := u }]).run s =
      .ok [{ va := va, n := n, acc := acc, p := p }] (tlbFill s r.cid e) := by
    unfold accessWants
    rw [run_bind_ok (run_checkWants_free h hal u), run_get_bind, piecesHeld_free h, if_neg Bool.false_ne_true,
      run_bind_ok hserve, run_pure]
  unfold access
  rw [run_bind_ok hw]
  rfl
end

end Sys2Proof.Machine
end

section
/-! A store to clean bytes of memory: it changes those bytes, and no poison (R5, R240, R248). -/
namespace Sys2Proof.Machine
open Sys2Proof.Obl

/-- Nothing changed but what memory keeps of its bytes. -/
def MemOnly (s t : State) : Prop :=
  { t with mem := s.mem, poison := s.poison, lost := s.lost, keyIds := s.keyIds, tags := s.tags, stale := s.stale,
           softErr := s.softErr } = s

theorem MemOnly.trans {s t u : State} (h1 : MemOnly s t) (h2 : MemOnly t u) : MemOnly s u := by
  unfold MemOnly at *
  rw [← h2] at h1
  exact h1

section
variable {s w : State} (hm : MemOnly s w)
include hm

theorem MemOnly.hart (k : Nat) : w.hart k = s.hart k := by
  rw [MemOnly] at hm
  rw [← hm]
  rfl

theorem MemOnly.ctx (c : Nat) : w.ctx c = s.ctx c := by
  rw [MemOnly] at hm
  rw [← hm]
  rfl

theorem MemOnly.agent : w.agent = s.agent := by
  rw [MemOnly] at hm
  rw [← hm]
end

/-- A store has put the low `n` bytes of `x` at `a` and changed no other byte and no poison (R5, R240). -/
structure Stored (s t : State) (a n x : Nat) : Prop where
  only : MemOnly s t
  bytes : StoredAt s t a n x
  poison : ∀ q, t.poisoned q = s.poisoned q

theorem storedAt_of_mem {s t u : State} {a n x : Nat} (hu : u.mem = s.mem) (ht : t.mem = (u.putNat a n x).mem) :
    StoredAt s t a n x := by
  refine ⟨fun i hi => ?_, fun b hb => ?_⟩
  · rw [State.byteAt_congr ht, State.byteAt_putNat_in _ _ _ _ hi]
  · rw [State.byteAt_congr ht, State.byteAt_putNat_out _ _ _ _ hb, State.byteAt_congr hu]

/-- Poison is cleared from a part that has none. -/
theorem poisoned_setPoison_false {s : State} {p : Nat} (h : s.poisoned p = false) (q : Nat) :
    (s.setPoison p false).poisoned q = s.poisoned q := by
  unfold State.poisoned State.setPoison at *
  by_cases e : q = p
  · subst e
    simp [h]
  · simp [e]

/-- A property that every round keeps holds after a loop over parts or lines. -/
theorem foldl_keeps {β : Type} {P : State → Prop} {f : State → β → State} {l : List β}
    (hf : ∀ t, ∀ x ∈ l, P t → P (f t x)) {s : State} (h : P s) : P (l.foldl f s) :=
  List.foldlRecOn l f h fun t ht x hx => hf t x hx ht

theorem putNat_memOnly (s : State) (a n x : Nat) : MemOnly s (s.putNat a n x) := by
  rw [State.putNat_only_mem]
  rfl

theorem putNat_poisoned (s : State) (a n x q : Nat) : (s.putNat a n x).poisoned q = s.poisoned q := by
  rw [State.putNat_only_mem]
  rfl

/-- A store to clean bytes of memory with poison per part (R240). -/
theorem plainWrite_stored {s : State} {a n : Nat} (x : Nat) (cov : Cov) (hp : ∀ q ∈ partsOf a n, s.poisoned q = false) :
    Stored s (plainWrite s a n x cov) a n x := by
  have hk : let u := (partsOf a n).foldl (fun s p => if cov.parts.contains p then s.setPoison p false else s) s
      MemOnly s u ∧ u.mem = s.mem ∧ ∀ q, u.poisoned q = s.poisoned q := by
    refine foldl_keeps (P := fun u => MemOnly s u ∧ u.mem = s.mem ∧ ∀ q, u.poisoned q = s.poisoned q)
      (fun t p hm ⟨ho, hmem, hq⟩ => ?_) ⟨rfl, rfl, fun _ => rfl⟩
    split
    · exact ⟨ho.trans rfl, hmem, fun q => (poisoned_setPoison_false ((hq p).trans (hp p hm)) q).trans (hq q)⟩
    · exact ⟨ho, hmem, hq⟩
  obtain ⟨ho, hmem, hq⟩ := hk
  exact ⟨ho.trans (putNat_memOnly _ _ _ _), storedAt_of_mem hmem rfl, fun q => (putNat_poisoned _ _ _ _ _).trans (hq q)⟩

theorem noteAlias_only (w who a n x : Nat) (cov : Cov) (s : State) (p : Nat) :
    noteAlias w who a n x cov s p = { s with stale := (noteAlias w who a n x cov s p).stale } := by
  unfold noteAlias
  dsimp only
  cases staleAt s p w <;> rfl

/-- Lines whose tag a read decodes keep it until they are stamped (R250). -/
theorem foldl_settleTag {s : State} (cov : Cov) {l : List Nat} (h : ∀ x ∈ l, tget 0 s.tags x < 8) :
    l.foldl (settleTag cov) s = s :=
  foldl_keeps (P := (· = s)) (fun t x hx ht => by rw [ht, settleTag, if_neg (Nat.not_le.mpr (h x hx))]) rfl

/-- Codewords that are not open stay as they are (R349). -/
theorem foldl_reopen {s : State} {l : List Nat} (h : ∀ p ∈ l, s.poisoned p = false) : l.foldl reopen s = s :=
  foldl_keeps (P := (· = s)) (fun t p hp ht => by rw [ht, reopen_plain (by simp [State.isLost, h p hp])]) rfl

/-- A part without poison and without soft errors, about to be stored: its poison stays as it is. -/
theorem clearParts_clean (cov : Cov) {s : State} {p : Nat} (hp : s.poisoned p = false) (he : tget 0 s.softErr p = 0) :
    MemOnly s (clearParts cov s p) ∧ (clearParts cov s p).mem = s.mem ∧
      (∀ q, (clearParts cov s p).poisoned q = s.poisoned q) ∧
      ∀ q, tget 0 s.softErr q = 0 → tget 0 (clearParts cov s p).softErr q = 0 := by
  unfold clearParts
  split
  · refine ⟨rfl, rfl, poisoned_setPoison_false hp, fun q hq => ?_⟩
    by_cases e : q = p
    · subst e
      exact tget_tdel_same _ _ _
    · exact (tget_tdel_ne _ _ e).trans hq
  · rw [settleSoft, if_pos he]
    exact ⟨rfl, rfl, fun _ => rfl, fun _ hq => hq⟩

theorem foldl_noteAlias (w who a n x : Nat) (cov : Cov) (l : List Nat) (s : State) :
    let u := l.foldl (noteAlias w who a n x cov) s
    MemOnly s u ∧ u.mem = s.mem ∧ u.poison = s.poison ∧ u.softErr = s.softErr :=
  foldl_keeps (P := fun u => MemOnly s u ∧ u.mem = s.mem ∧ u.poison = s.poison ∧ u.softErr = s.softErr)
    (fun t p _ ⟨ho, hm, hq, he⟩ => by
      rw [noteAlias_only]
      exact ⟨ho.trans rfl, hm, hq, he⟩) ⟨rfl, rfl, rfl, rfl⟩

theorem foldl_clearParts (cov : Cov) {l : List Nat} {s : State} (hp : ∀ p ∈ l, s.poisoned p = false)
    (he : ∀ p ∈ l, tget 0 s.softErr p = 0) :
    let u := l.foldl (clearParts cov) s
    MemOnly s u ∧ u.mem = s.mem ∧ ∀ q, u.poisoned q = s.poisoned q := by
  have h : let u := l.foldl (clearParts cov) s
      (MemOnly s u ∧ u.mem = s.mem ∧ ∀ q, u.poisoned q = s.poisoned q) ∧ ∀ p ∈ l, tget 0 u.softErr p = 0 := by
    refine foldl_keeps (P := fun u => (MemOnly s u ∧ u.mem = s.mem ∧ ∀ q, u.poisoned q = s.poisoned q) ∧
      ∀ p ∈ l, tget 0 u.softErr p = 0) (fun t p hm ⟨⟨ho, hmem, hq⟩, he⟩ => ?_) ⟨⟨rfl, rfl, fun _ => rfl⟩, he⟩
    obtain ⟨h1, h2, h3, h4⟩ := clearParts_clean cov ((hq p).trans (hp p hm)) (he p hm)
    exact ⟨⟨ho.trans h1, h2.trans hmem, fun q => (h3 q).trans (hq q)⟩, fun q hm => h4 q (he q hm)⟩
  exact h.1

theorem foldl_stampLine (key : Nat) (cmp : Bool) (cov : Cov) (l : List Nat) (s : State) :
    let u := l.foldl (stampLine key cmp cov) s
    MemOnly s u ∧ u.mem = s.mem ∧ u.poison = s.poison :=
  foldl_keeps (f := stampLine key cmp cov) (P := fun u => MemOnly s u ∧ u.mem = s.mem ∧ u.poison = s.poison)
    (fun _ _ _ ⟨ho, hm, hq⟩ => ⟨ho.trans rfl, hm, hq⟩) ⟨rfl, rfl, rfl⟩

/-- A store to clean bytes of backed DRAM (R240, R248, R250): of its steps on lines and parts, none changes the bytes or the
poison. -/
theorem dramWrite_stored {s : State} {cid key a n w : Nat} (cmp : Bool) (x who : Nat) (cov : Cov)
    (hc : CleanDram s cid key a n w) : Stored s (dramWrite s key cmp a n x w who cov) a n x := by
  obtain ⟨hp, hl, -⟩ := hc
  show Stored s ((linesOf a n).foldl (stampLine key cmp cov) ((partsOf a n).foldl reopen
    (((partsOf a n).foldl (clearParts cov) ((partsOf a n).foldl (noteAlias w who a n x cov)
      ((linesOf a n).foldl (settleTag cov) s))).putNat a n x))) a n x
  rw [foldl_settleTag cov fun l hm => (hl l hm).2.1]
  have h1 := foldl_noteAlias w who a n x cov (partsOf a n) s
  generalize (partsOf a n).foldl (noteAlias w who a n x cov) s = u1 at h1
  obtain ⟨ho1, hm1, hq1, he1⟩ := h1
  have hp1 : ∀ q, u1.poisoned q = s.poisoned q := fun q => by rw [State.poisoned, hq1]; rfl
  have h2 := foldl_clearParts cov (fun p hm => (hp1 p).trans (hp p hm).1) (fun p hm => by rw [he1]; exact (hp p hm).2.1)
  generalize (partsOf a n).foldl (clearParts cov) u1 = u2 at h2
  obtain ⟨ho2, hm2, hq2⟩ := h2
  have hp3 : ∀ q, (u2.putNat a n x).poisoned q = s.poisoned q := fun q =>
    (putNat_poisoned ..).trans ((hq2 q).trans (hp1 q))
  rw [foldl_reopen fun p hm => (hp3 p).trans (hp p hm).1]
  obtain ⟨ho4, hm4, hq4⟩ := foldl_stampLine key cmp cov (linesOf a n) (u2.putNat a n x)
  refine ⟨((ho1.trans ho2).trans (putNat_memOnly ..)).trans ho4, storedAt_of_mem (hm2.trans hm1) hm4, fun q => ?_⟩
  rw [State.poisoned, hq4]
  exact hp3 q

end Sys2Proof.Machine
end

section
/-! The scalar stores (R153 to R155, R159), and the statement on them. -/
namespace Sys2Proof.Machine
open Sys2Proof.Obl

theorem run_myRq {s : State} {h : Nat} (ha : s.agent = .hart h) : myRq.run s = .ok (rqOf s h) s := by
  have e : ({ cid := (s.hart (agentHart s)).cid, stack := coreStack (agentCore s), lvl := levelOf s, who := whoOf s } : Rq) =
      rqOf s h := by
    simp [agentHart, agentCore, levelOf, whoOf, ha, rqOf, coreStack, coreOf]
  rw [← e]
  rfl

/-- The place of `n` plain bytes at the canonical address `a`: of a scratchpad, or of backed DRAM whose lines hold the key of the
access (R235, R240, R248). -/
def PlainPlace (s : State) (cid : Nat) (acc : Acc) (p : Place) (n a : Nat) : Prop :=
  (∃ c o, p = .spad c o ∧ a = spadAddr c o ∧ ∀ q ∈ partsOf a n, s.poisoned q = false) ∨
    ∃ w, p = .dram a w ∧ CleanDram s cid acc.key a n p.window

/-- Where a plain access of `n` bytes goes: a scratchpad or backed DRAM, with the key that its lines hold. -/
theorem plainAt_cases {s : State} {r : Rq} {via : Via} {k : AKind} {va : W} {n a : Nat} (h : PlainAt s r via k va n a) :
    ∃ acc p e, FreeRange s r via k va n acc p e ∧ reach s r.stack (homeStack s acc p) = .ok ∧
      PlainPlace s r.cid acc p n a := by
  obtain ⟨acc, p, e, hres, hub, hlt, hreach, hfree, hplace⟩ := h
  refine ⟨acc, p, e, ⟨hres, hub, hlt, hfree, fun b hb => ?_⟩, hreach, hplace⟩
  subst hb
  rcases hplace with ⟨c, o, hc, -⟩ | ⟨w, hw, -⟩
  · cases hc
  · cases hw

/-- The home of a plain access takes its store (R155, R240, R248). -/
theorem homeWrite_plain {s : State} {cid : Nat} {acc : Acc} {p : Place} {n a : Nat} (x who : Nat) (cov : Cov)
    (hub : acc.ub = false) (hlt : acc.lt = 0)
    (hp : PlainPlace s cid acc p n a) :
    (homeWrite s acc p n x who cov).2 = [] ∧ Stored s (homeWrite s acc p n x who cov).1 a n x := by
  rcases hp with ⟨c, o, rfl, rfl, hq⟩ | ⟨w, rfl, hc⟩
  · have e : homeWrite s acc (.spad c o) n x who cov = (plainWrite s (spadAddr c o) n x cov, []) := by
      simp [homeWrite, homeAddr, hub]
    rw [e]
    exact ⟨rfl, plainWrite_stored x cov hq⟩
  · have hk : keyRefuses s acc.key a n cov = false := by
      have := hc.2.1
      simp only [keyRefuses, List.any_eq_false]
      intro l hl
      simp [(this l hl).1]
    have e : homeWrite s acc (.dram a w) n x who cov =
        (dramWrite s acc.key acc.cmp a n x (Place.dram a w).window who cov, []) := by
      simp [homeWrite, homeAddr, hub, hlt, hk]
    rw [e]
    exact ⟨rfl, dramWrite_stored acc.cmp x who cov hc⟩

/-- The store of a plain access goes through (R155). -/
theorem run_storeAt_plain {s : State} {r : Rq} {acc : Acc} {p : Place} {n a : Nat} (h x elem : Nat) (cov : Cov)
    (hub : acc.ub = false) (hlt : acc.lt = 0) (hr : reach s r.stack (homeStack s acc p) = .ok)
    (hp : PlainPlace s r.cid acc p n a) :
    ∃ w, (storeAt r h acc p n x elem cov).run s = .ok () w ∧ Stored s w a n x := by
  obtain ⟨h1, h2⟩ := homeWrite_plain x r.who cov hub hlt hp
  have hh : homeFor s acc p true = homeStack s acc p := by
    rcases hp with ⟨c, o, rfl, -⟩ | ⟨w, rfl, -⟩ <;> rfl
  refine ⟨_, ?_, h2⟩
  unfold storeAt
  rw [run_get_bind]
  simp only [hh, hr, h1]
  rfl

/-- A hart with no access on the fabric has none that overlaps (R158). -/
theorem run_needApart {s : State} {h : Nat} (ha : s.agent = .hart h) (hn : ∀ e ∈ s.reqs, e.2.src ≠ h) (acc : Acc) (n : Nat) :
    (needApart acc n).run s = .ok () s := by
  have e : s.reqs.any (fun e => e.2.src == h && e.2.acc.cid == acc.cid && decide (e.2.acc.pa < acc.pa + n) &&
      decide (acc.pa < e.2.acc.pa + e.2.n)) = false := by
    rw [List.any_eq_false]
    intro e he
    simp [hn e he]
  unfold needApart
  rw [run_get_bind]
  simp only [agentHart, ha, e, Bool.false_and]
  rfl

/-- A store outside lattice regions is no join. -/
theorem run_joinFirst {s : State} {q : Piece} (h : q.acc.lt = 0) : (joinFirst [q]).run s = .ok () s := by
  simp [joinFirst, h]

/-- A scalar store to plain, aligned bytes stores them; the hart's stack may cache their translation (R155, R179). -/
theorem run_scalarStore {s : State} {h : Nat} {va : W} {n a : Nat} (x : Nat) (hq : Quiet s h) (hal : va.toNat % n = 0)
    (hp : PlainAt s (rqOf s h) .scalar .write va n a) :
    ∃ e w, (scalarStore va n x).run s = .ok () w ∧ Stored (tlbFill s (rqOf s h).cid e) w a n x := by
  obtain ⟨ha, -, hpost, hno, -⟩ := hq
  obtain ⟨acc, p, e, hfree, hreach, hplace⟩ := plainAt_cases hp
  have hacc := run_access_free hfree (al := 1) (Nat.mod_one _) .whole
  have hua : (tlbFill s (rqOf s h).cid e).agent = .hart h := by rw [tlbFill_eq]; exact ha
  have hup : (tlbFill s (rqOf s h).cid e).posting = none := by rw [tlbFill_eq]; exact hpost
  have hur : ∀ e' ∈ (tlbFill s (rqOf s h).cid e).reqs, e'.2.src ≠ h := by rw [tlbFill_eq]; exact hno
  have hureach : reach (tlbFill s (rqOf s h).cid e) (rqOf s h).stack
      (homeStack (tlbFill s (rqOf s h).cid e) acc p) = .ok := by
    rw [tlbFill_eq, reach_ctxs, homeStack, homeFor_ctxs _ _ _ _ hfree.backed]
    exact hreach
  have huplace : PlainPlace (tlbFill s (rqOf s h).cid e) (rqOf s h).cid acc p n a := by
    rw [tlbFill_eq]
    exact hplace
  obtain ⟨w, hw, hs⟩ := run_storeAt_plain h x 0 (covOf (homeAddr acc p) n) hfree.backed hfree.plain hureach huplace
  refine ⟨e, w, ?_, hs⟩
  unfold scalarStore
  rw [if_neg (not_not_intro hal), run_bind_ok (run_myRq ha), run_bind_ok (show myNo.run s = _ from run_me s), run_bind_ok hacc,
    run_bind_ok (run_joinFirst hfree.plain), run_bind_ok (run_needApart hua hur acc n), run_get_bind, hup, ← hw]
  simp only [agentHart, ha]

/-- The instruction comes to a scalar store of `n` bytes `x` at `va`. -/
def StoresAs (s : State) (i : Instr) (va : W) (n x : Nat) : Prop :=
  ∃ body, exec i s = scalarX i body s ∧ body.run s = (scalarStore va n x).run s

section
variable {s : State} {h : Nat} (ha : s.agent = .hart h)
include ha

theorem agentRegs_hart : agentRegs s = (s.hart h).s := by simp [agentRegs, ha]

theorem storesAs_storeX {i : Instr} {n : Nat} {d a : SReg} {off : W} (hx : exec i s = storeX i n d a off s) :
    StoresAs s i ((s.hart h).rd a + off) n (((s.hart h).rd d).toNat % 2 ^ (8 * n)) := by
  refine ⟨_, hx, ?_⟩
  rw [run_bind_ok (run_rd d s), run_bind_ok (run_rd a s), agentRegs_hart ha]
  rfl

theorem storesAs_storeQX {i : Instr} {d a : SReg} {off : W} (hx : exec i s = storeQX i d a off s) :
    StoresAs s i ((s.hart h).rd a + off) 16 (pairVal (s.hart h) d) := by
  have hpair : (rdPair d).run s = .ok (pairVal (s.hart h) d) s := by
    unfold rdPair
    rw [run_bind_ok (run_rd d s), run_bind_ok (run_rd (nextReg d) s), agentRegs_hart ha]
    rfl
  refine ⟨_, hx, ?_⟩
  rw [run_bind_ok hpair, run_bind_ok (run_rd a s), agentRegs_hart ha]
  rfl

theorem storesAs_stl (hp : NoPosted s h) (d : SReg) (sc : Scope) (sz : Bool) (a : SReg) (off : BitVec 10) :
    StoresAs s (.stl d sc sz a off) ((s.hart h).rd a + off.signExtend 64) (if sz then 8 else 4)
      (((s.hart h).rd d).toNat % 2 ^ (if sz then 64 else 32)) := by
  refine ⟨_, rfl, ?_⟩
  rw [run_bind_ok (run_rd d s), run_bind_ok (run_needPosted ha hp), run_bind_ok (run_rd a s), agentRegs_hart ha]
  rfl

/-- Every scalar store comes to a store of the number at the address that R153 gives. -/
theorem storesAs_of_storeOf (hp : NoPosted s h) {i : Instr} {va : W} {n v : Nat} (hs : storeOf (s.hart h) i = some (va, n, v)) :
    StoresAs s i va n v := by
  have hd : ∀ d, ((s.hart h).rd d).toNat % 2 ^ (8 * 8) = ((s.hart h).rd d).toNat := fun d =>
    Nat.mod_eq_of_lt ((s.hart h).rd d).isLt
  unfold storeOf at hs
  split at hs <;> cases hs
  · exact storesAs_storeX ha rfl
  · exact storesAs_storeX ha rfl
  · exact storesAs_storeX ha rfl
  · exact storesAs_storeX ha rfl
  · exact storesAs_storeX ha rfl
  · exact storesAs_storeX ha rfl
  · rw [← hd]
    exact storesAs_storeX ha rfl
  · rw [← hd]
    exact storesAs_storeX ha rfl
  · exact storesAs_storeQX ha rfl
  · exact storesAs_storeQX ha rfl
  · exact storesAs_stl ha hp _ _ _ _ _
end

/-- A store under new cached translations, and a change of its hart, leave the rest of the part as it was. -/
theorem onlyStored_modHart {s u w : State} (hu : u = { s with ctxs := u.ctxs }) (hm : MemOnly u w) (h : Nat) (f : Hart → Hart) :
    OnlyStored s (w.modHart h f) := by
  have hs : { u with harts := s.harts, ctxs := s.ctxs } = s := by rw [hu]
  rw [MemOnly] at hm
  rw [OnlyStored]
  conv =>
    rhs
    rw [← hs, ← hm]
  rw [hu]
  rfl

theorem State.modHart_ctx (s : State) (h c : Nat) (f : Hart → Hart) : (s.modHart h f).ctx c = s.ctx c := rfl

theorem State.modHart_poisoned (s : State) (h q : Nat) (f : Hart → Hart) : (s.modHart h f).poisoned q = s.poisoned q := rfl

end Sys2Proof.Machine

open Sys2Proof Sys2Proof.Machine Sys2Proof.Obl in
/-- Settles O8: every scalar store comes to one store of plain, aligned bytes, which the access reaches without a trap, a wait
or a conflict and which writes those bytes alone. -/
theorem scalarStores : Obligations.ScalarStores := by
  intro s h i va n v a hq hs hal hp
  obtain ⟨ha, -, -, hno⟩ := id hq
  obtain ⟨body, hx, hbody⟩ := storesAs_of_storeOf ha hno hs
  obtain ⟨e, w, hw, hst⟩ := run_scalarStore v hq hal hp
  have hru := tlbFill_eq s (rqOf s h).cid e
  have hct := tlbFill_ctx s (rqOf s h).cid e
  generalize tlbFill s (rqOf s h).cid e = u at hw hst hru hct
  obtain ⟨honly, ⟨hin, hout⟩, hpoison⟩ := hst
  have hhart : ∀ k, w.hart k = s.hart k := fun k => by rw [honly.hart, hru]; rfl
  have hwa : w.agent = .hart h := by rw [honly.agent, hru, ha]
  have hmem := State.byteAt_congr (advance_hart_mem hwa)
  obtain ⟨hpast, hregs⟩ := advance_hart_past hwa
  rw [hhart] at hpast hregs
  refine ⟨_, hx.trans (scalarX_ok ha (hbody.trans hw)), ⟨fun j hj => ?_, fun b hb => ?_⟩, ?_, fun q _ => ?_, hpast, hregs,
    fun k hk => ?_, fun c => ?_⟩
  · rw [hmem, hin j hj]
  · rw [hmem, hout b hb, hru]
    rfl
  · rw [advance_hart hwa]
    exact onlyStored_modHart hru honly h _
  · rw [advance_hart hwa, State.modHart_poisoned, hpoison, hru]
    rfl
  · rw [(advance_hart_onlyHart hwa).2 k hk, hhart]
  · rw [advance_hart hwa, State.modHart_ctx, honly.ctx]
    exact hct c
end
